-- ==== Sys2Proof/Word.lean ====
section
/-! DEFINITION. The words and index ranges of the FE16 (00_scope.md, Conventions: Number formats and
Identifiers). Bit vectors are used where the manual speaks of bits, words or wrapping numbers. -/

namespace Sys2Proof

/-- A byte of the host link. -/
abbrev Byte := BitVec 8

/-- A lane word, a sample or a coefficient: a Q1.15 fraction. -/
abbrev Sample := BitVec 16

/-- A 16-bit counter or a two-byte field. -/
abbrev Half := BitVec 16

/-- A filter output: a 24-bit signed integer. -/
abbrev Output := BitVec 24

/-- An output index: 32 bits, wrapping. -/
abbrev OutIndex := BitVec 32

/-- A channel number, 0 to 15. -/
abbrev ChanId := Fin 16

/-- A lane number, 0 to 3. -/
abbrev LaneId := Fin 4

/-- A slot of a lane frame, 0 to 7. -/
abbrev SlotId := Fin 8

/-- A coefficient bank number, 0 to 31. -/
abbrev BankId := Fin 32

/-- A coefficient page number, 0 to 63. -/
abbrev PageId := Fin 64

/-- A watch number, 0 to 7. -/
abbrev WatchId := Fin 8

/-- A priority class, 0 (highest) to 3 (lowest). -/
abbrev ClassId := Fin 4

/-- One of the four batch slots of a channel. -/
abbrev BatchId := Fin 4

end Sys2Proof
end

