-- ==== Sys2Proof/Syntax.lean ====
section
/-! DEFINITION. The commands of the block: one constructor of `Instr` for each row of
spec/opcode_table.json. A row is one indivisible event (95_what_each_step_holds.md). Where the manual leaves
to chance or to the world what an event does, the choice is an operand of the event. -/

namespace Sys2Proof

/-- The host command types: the rows of section 9.2 that the host sends and the link controller takes. -/
inductive Command where
  | ping
  | deviceReset
  | linkSet
  | deviceQuery
  | bankOpen
  | bankData
  | bankSeal
  | bankFree
  | bankQuery
  | laneSet
  | laneQuery
  | chanConfig
  | chanBind
  | chanStart
  | chanStop
  | chanAbort
  | chanClear
  | chanSwap
  | chanQuery
  | chanRotate
  | watchSet
  | watchOff
  | watchQuery
deriving DecidableEq, Repr

/-- What a dispatch completion leaves open.
`noticeOrder`: whose notice enters the notice queue next, where several channels of the completion raise
notices ("in either order", R69; log entry 11).
`stopFirst`: the watches whose stop request is taken before the swap-point claim of the same output (R18, R90;
log entry 12).
`stopLate`: the watches whose stop request is not taken within the completion, but left waiting (R21; log entry
12). It outweighs `stopFirst`.
`badHistory`: the history reads found to fail their parity check, as (channel, k) for x[n-k] (R77, R79; log
entry 8). -/
structure CompletionChoice where
  noticeOrder : List ChanId
  stopFirst   : List WatchId
  stopLate    : List WatchId
  badHistory  : List (ChanId × Fin 256)
deriving DecidableEq, Repr

/-- The commands. A host command's row is the taking of its frame from the head of the inbound queue (R136);
its operands are that frame's tag and payload. -/
inductive Instr where
  /-- POWER_RESET: `hrxSpace` says whether HRX is at space as the reset ends (R145, R148). -/
  | powerReset (hrxSpace : Bool)
  /-- PIN_RESET: RSTN low and released again (R148). -/
  | pinReset (hrxSpace : Bool)
  /-- LINK_RESET: expiry of the space timer (R146). -/
  | linkReset
  /-- GAP_TIMER_EXPIRY (R130). -/
  | gapTimerExpiry
  /-- BYTE_ARRIVAL: a character ends with its stop bit at mark (R128, R129). -/
  | byteArrival (value : Byte)
  /-- BYTE_FRAMING_ERROR: a character ends with its stop bit at space (R128, R132). -/
  | byteFramingError
  /-- WORD_ARRIVAL: the sixteenth bit of a word is sampled on a lane (R46, R48). -/
  | wordArrival (lane : LaneId) (word : Sample) (marker : Bool)
  /-- DISPATCH_START (R64 to R66). -/
  | dispatchStart
  /-- DAMAGE_MARKING: coefficient `k`, read for `channel`, fails its parity check (R40, R77). -/
  | damageMarking (channel : ChanId) (k : Fin 256)
  /-- DISPATCH_COMPLETION (R68 to R71). -/
  | dispatchCompletion (choice : CompletionChoice)
  /-- ACK_TIMER_EXPIRY: the timer of the batch in this slot of this channel (R106). -/
  | ackTimerExpiry (channel : ChanId) (slot : BatchId)
  /-- TRANSMISSION_START: the arbiter's choice (R116, R117). -/
  | transmissionStart
  /-- SEND_COMPLETION: the last byte of the frame leaves the transmitter (R116). -/
  | sendCompletion
  /-- PING (R138). -/
  | ping (tag : Byte) (payload : List Byte)
  /-- DEVICE_RESET (R143). -/
  | deviceReset (tag : Byte) (payload : List Byte)
  /-- LINK_SET (R139). -/
  | linkSet (tag : Byte) (payload : List Byte)
  /-- DEVICE_QUERY (R142). -/
  | deviceQuery (tag : Byte) (payload : List Byte)
  /-- BANK_OPEN (R32). -/
  | bankOpen (tag : Byte) (payload : List Byte)
  /-- BANK_DATA (R33). -/
  | bankData (tag : Byte) (payload : List Byte)
  /-- BANK_SEAL (R35); `upsets` are the coefficients found bad at the read-back, as (k, value read) (log
  entry 8). -/
  | bankSeal (tag : Byte) (payload : List Byte) (upsets : List (Fin 256 × Sample))
  /-- BANK_FREE (R36). -/
  | bankFree (tag : Byte) (payload : List Byte)
  /-- BANK_QUERY (R43). -/
  | bankQuery (tag : Byte) (payload : List Byte)
  /-- LANE_SET (R59). -/
  | laneSet (tag : Byte) (payload : List Byte)
  /-- LANE_QUERY (R60). -/
  | laneQuery (tag : Byte) (payload : List Byte)
  /-- CHAN_CONFIG (R6). -/
  | chanConfig (tag : Byte) (payload : List Byte)
  /-- CHAN_BIND (R8). -/
  | chanBind (tag : Byte) (payload : List Byte)
  /-- CHAN_START (R9). -/
  | chanStart (tag : Byte) (payload : List Byte)
  /-- CHAN_STOP (R13). -/
  | chanStop (tag : Byte) (payload : List Byte)
  /-- CHAN_ABORT (R19). -/
  | chanAbort (tag : Byte) (payload : List Byte)
  /-- CHAN_CLEAR (R20). -/
  | chanClear (tag : Byte) (payload : List Byte)
  /-- CHAN_SWAP (R16, R17). -/
  | chanSwap (tag : Byte) (payload : List Byte)
  /-- CHAN_QUERY (R23). -/
  | chanQuery (tag : Byte) (payload : List Byte)
  /-- CHAN_ROTATE (R24). -/
  | chanRotate (tag : Byte) (payload : List Byte)
  /-- WATCH_SET (R85). -/
  | watchSet (tag : Byte) (payload : List Byte)
  /-- WATCH_OFF (R86). -/
  | watchOff (tag : Byte) (payload : List Byte)
  /-- WATCH_QUERY (R92). -/
  | watchQuery (tag : Byte) (payload : List Byte)
  /-- BAD_TYPE: a taken frame whose TYPE is no host command code (R136, R151). -/
  | badType (type tag : Byte) (payload : List Byte)
  /-- HRX_CHANGES_TO_SPACE (R128, R145). -/
  | hrxChangesToSpace
  /-- HRX_CHANGES_TO_MARK (R128, R145). -/
  | hrxChangesToMark
deriving DecidableEq, Repr

end Sys2Proof
end

