-- ==== Sys2Proof/Decode.lean ====
section
/-! DEFINITION. Reading encoded numbers as commands. The rows of spec/opcode_table.json give no bits, so
`decodeTableWord` answers none for every word; what the FE16 does decode is the TYPE byte of a frame
(section 9.2), and that table stands here. -/

namespace Sys2Proof

/-- The command that a word spells by the table's bits: no row has bits. -/
def decodeTableWord (_nbits _w : Nat) : Option Instr := none

/-- The TYPE code of a host command (section 9.2). -/
def Command.code : Command → Byte
  | .ping        => 0x01
  | .deviceReset => 0x02
  | .linkSet     => 0x03
  | .deviceQuery => 0x04
  | .bankOpen    => 0x10
  | .bankData    => 0x11
  | .bankSeal    => 0x12
  | .bankFree    => 0x13
  | .bankQuery   => 0x14
  | .laneSet     => 0x20
  | .laneQuery   => 0x21
  | .chanConfig  => 0x30
  | .chanBind    => 0x31
  | .chanStart   => 0x32
  | .chanStop    => 0x33
  | .chanAbort   => 0x34
  | .chanClear   => 0x35
  | .chanSwap    => 0x36
  | .chanQuery   => 0x37
  | .chanRotate  => 0x38
  | .watchSet    => 0x40
  | .watchOff    => 0x41
  | .watchQuery  => 0x42

/-- Every host command, in the order of section 9.2. -/
def Command.all : List Command :=
  [.ping, .deviceReset, .linkSet, .deviceQuery, .bankOpen, .bankData, .bankSeal, .bankFree, .bankQuery,
   .laneSet, .laneQuery, .chanConfig, .chanBind, .chanStart, .chanStop, .chanAbort, .chanClear, .chanSwap,
   .chanQuery, .chanRotate, .watchSet, .watchOff, .watchQuery]

/-- The host command a TYPE byte names (step 1 of R136); none for ACK, for the types the FE16 sends and for
codes the table does not list. -/
def Command.ofCode (type : Byte) : Option Command := Command.all.find? (fun c => c.code == type)

/-- The TYPE codes that are no command: ACK, and the five the FE16 sends (section 9.2). -/
def FrameType.ack : Byte := 0x50
def FrameType.hello : Byte := 0x80
def FrameType.reply : Byte := 0x81
def FrameType.done : Byte := 0x82
def FrameType.notice : Byte := 0x83
def FrameType.batch : Byte := 0x84

end Sys2Proof
end

