-- ==== Sys2Proof/Config.lean ====
section
/-! DEFINITION. What one FE16 fixes: the numbers of the manual that are not state, and the contents a model
gives to memory that nothing has written. -/

namespace Sys2Proof

/-- A 16-bit word kept with its parity mark (R27, R72). `markGood` says whether the mark matches the
content, which is what a check finds. -/
structure StoredWord where
  value    : Sample
  markGood : Bool
deriving DecidableEq, Repr

namespace Config

/-- DESIGN CHOICE (log entries 6 and 7): what a coefficient word or a history entry reads as that nothing has
written since power-up. -/
def unwritten : StoredWord := ⟨0, true⟩

/-- The SYNC byte of a frame (R129). -/
def sync : Byte := 0xA7

/-- Capacity of the inbound command queue (R135). -/
def inboundCapacity : Nat := 4

/-- Capacity of the reply queue (R137). -/
def replyCapacity : Nat := 8

/-- Capacity of a lane FIFO (R55). -/
def fifoCapacity : Nat := 32

/-- Capacity of the notice queue (R121). -/
def noticeCapacity : Nat := 16

/-- Entries of a history ring (R72). -/
def ringSize : Nat := 256

/-- Words of a coefficient page (R27). -/
def pageWords : Nat := 64

/-- Expiry of the space timer of the break detector, in ms (R145). -/
def breakTime : Nat := 2

/-- The part code of the greeting (R150). -/
def partCode : Half := 0xFE16

/-- The revision number of the greeting (R150). -/
def revision : Byte := 1

/-- The five capacities of the greeting: channels, lanes, banks, pages, watches (R150). -/
def capacities : List Byte := [16, 4, 32, 64, 8]

/-- The line rates by rate code, in bit/s (section 8.1). -/
def bitsPerSecond : List Nat := [115200, 230400, 460800, 921600, 1843200, 3000000]

end Config
end Sys2Proof
end

