-- ==== Sys2Proof/Machine/State.lean ====
section
/-! DEFINITION. The state of the FE16, block by block as the manual's block overview (00_scope.md) gives it,
and the machine right after a power reset. Every field is plain data. -/

namespace Sys2Proof.Machine

/-- Why the block stops with a fault. No command of the FE16 stops it: the manual gives every event an
effect, and its memory faults fault a channel, not the part (R22). So there is no constructor (log entry
19); safe. -/
inductive Fault
deriving DecidableEq, Repr

/-- Why a command is rejected. -/
inductive Refusal where
  /-- Raised by an arm of `exec` whose command has no meaning yet; safe. No arm raises it now. -/
  | notModelled (mnemonic : String)
deriving DecidableEq, Repr

/-- A timer, stopped or running with the interval in ms that its last start gave it. Its expiry is an event
of its own (log entry 4). -/
inductive Timer where
  | stopped
  | running (ms : Nat)
deriving DecidableEq, Repr

/-! ## Frames, replies and notices -/

/-- A frame without its SYNC, LEN and CRC, which its content fixes (section 9.1, R154). -/
structure Frame where
  type    : Byte
  tag     : Byte
  payload : List Byte
deriving DecidableEq, Repr

/-- Reply statuses (section 9.6). -/
inductive Status where
  | ok
  | accepted
  | badType
  | badLength
  | badArg
  | wrongState
  | busy
  | noSpace
  | inUse
  | sequence
  | incomplete
  | checkFail
deriving DecidableEq, Repr

/-- A reply as the reply queue holds it (R137). -/
structure Reply where
  tag        : Byte
  type       : Byte
  status     : Status
  body       : List Byte
  rxDiscards : Byte
deriving DecidableEq, Repr

/-- The cause a LANE_LOST notice names (R53). -/
inductive LostCause where
  | earlyMarker
  | missingMarker
deriving DecidableEq, Repr

/-- The cause of a memory fault: a bank, or the history ring (R22, R77). -/
inductive FaultCause where
  | bank (bank : BankId)
  | history
deriving DecidableEq, Repr

/-- Notices (section 7.3). -/
inductive Notice where
  | laneLocked (lane : LaneId)
  | laneLost (lane : LaneId) (cause : LostCause)
  | laneOverrun (lane : LaneId)
  | watchTrip (watch : WatchId) (channel : ChanId) (index : OutIndex) (value : Output)
  | watchClear (watch : WatchId) (channel : ChanId) (index : OutIndex) (value : Output)
  | deliveryLost (channel : ChanId) (sequence : Byte) (lost : BitVec 32)
  | staleAck (channel : ChanId) (sequence : Byte)
  | memoryFault (channel : ChanId) (cause : FaultCause)
  | channelStopped (channel : ChanId)
deriving DecidableEq, Repr

/-! ## The link controller -/

/-- The frame assembler with its frame in assembly: the bytes collected since its SYNC (R129). -/
inductive Assembler where
  | seek
  | length
  | body (len : Byte) (collected : List Byte)
deriving DecidableEq, Repr

/-- The receiver condition (R128). -/
inductive Receiver where
  | readyForStart
  | waitMark
deriving DecidableEq, Repr

/-- The break detector (R145). It stands in IDLE exactly while HRX is at mark. -/
inductive Detector where
  | idle
  | space
  | broken
deriving DecidableEq, Repr

/-- The reset-cause record (R149). -/
inductive ResetCause where
  | power
  | pin
  | command
  | link
deriving DecidableEq, Repr

/-- The five link counters (R131). -/
structure LinkCounters where
  crcErrors     : Half
  truncated     : Half
  framing       : Half
  queueFull     : Half
  malformedAcks : Half
deriving DecidableEq, Repr

/-- The link controller (the table at the head of 08_the_host_link.md). `rxChar` holds the data bits of the
character that the receiver is sampling (R128, R141). -/
structure Link where
  rate         : Fin 6
  gapTimeout   : Nat
  assembler    : Assembler
  gapTimer     : Timer
  receiver     : Receiver
  rxChar       : Option (List Bool)
  detector     : Detector
  inbound      : List Frame
  replies      : List Reply
  resetPending : Bool
  rxDiscards   : Byte
  counters     : LinkCounters
  greeting     : Bool
  cause        : ResetCause
deriving DecidableEq, Repr

/-! ## The channel controller -/

/-- Channel states (section 1.2). -/
inductive ChanState where
  | idle
  | ready
  | running
  | stopping
  | faulted
deriving DecidableEq, Repr

/-- The range policy (section 1.1). -/
inductive RangePolicy where
  | sat
  | wrap
deriving DecidableEq, Repr

/-- The twelve configuration values (R1). -/
structure ChanConfig where
  lane       : LaneId
  slot       : SlotId
  decimation : Nat
  shift      : Nat
  fraction   : Bool
  policy     : RangePolicy
  batchSize  : Nat
  window     : Nat
  autoAck    : Bool
  cls        : ClassId
  ackTimeout : Nat
  retryLimit : Nat
deriving DecidableEq, Repr

/-- Why a STOPPING channel is stopping (R2). -/
inductive StopCause where
  | command
  | watch
deriving DecidableEq, Repr

/-- The deferred operations (section 1.6). -/
inductive Operation where
  | stop
  | swap
deriving DecidableEq, Repr

/-- Completion statuses (section 9.6). -/
inductive DoneStatus where
  | ok
  | cancelled
  | aborted
  | faulted
deriving DecidableEq, Repr

/-- The operation slot (R11). -/
inductive OpSlot where
  | none
  | pending (op : Operation) (tag : Byte)
  | unreported (op : Operation) (tag : Byte) (status : DoneStatus)
deriving DecidableEq, Repr

/-- The four conditions that wait to be carried into a batch (R2). -/
structure Flags where
  gap      : Bool
  settling : Bool
  guard    : Bool
  clip     : Bool
deriving DecidableEq, Repr

/-- The six event counters (R3). -/
structure ChanCounters where
  guardEvents     : Half
  clipEvents      : Half
  gapEvents       : Half
  outputsLost     : Half
  batchesDropped  : Half
  retransmissions : Half
deriving DecidableEq, Repr

/-- A channel record (section 1.1). -/
structure Channel where
  config    : ChanConfig
  state     : ChanState
  active    : Option BankId
  staged    : Option BankId
  session   : Byte
  phase     : Nat
  fill      : Nat
  outIndex  : OutIndex
  flags     : Flags
  stopCause : Option StopCause
  opSlot    : OpSlot
  counters  : ChanCounters
deriving DecidableEq, Repr

/-! ## The bank store -/

/-- Bank states (section 2.2). -/
inductive BankState where
  | free
  | opened
  | sealed
  | damaged
deriving DecidableEq, Repr

/-- A bank record (R29). A FREE bank has tap count 0 and an empty page list. -/
structure Bank where
  state  : BankState
  taps   : Nat
  pages  : List PageId
  loaded : Nat
  refs   : Nat
  hold   : Bool
deriving DecidableEq, Repr

/-! ## The lane receivers -/

/-- Lane states (section 3.3). -/
inductive LaneState where
  | off
  | hunt
  | check
  | locked
deriving DecidableEq, Repr

/-- An admitted word (R55). -/
structure FifoEntry where
  slot    : SlotId
  value   : Sample
  gapMark : Bool
deriving DecidableEq, Repr

/-- The word in assembly (R46): its bits, first sampled first, the marker level at its first bit, and the
marker level at the bit sampled last since the lane entered HUNT. -/
structure PartialWord where
  bits       : List Bool
  marker     : Bool
  lastMarker : Option Bool
deriving DecidableEq, Repr

/-- A lane record (section 3.2). The gap-pending set is listed in ascending order. -/
structure Lane where
  state       : LaneState
  slotCount   : Nat
  position    : Nat
  fifo        : List FifoEntry
  gapPending  : List SlotId
  latch       : Bool
  received    : Half
  misframes   : Half
  overruns    : Half
  partialWord : PartialWord
deriving DecidableEq, Repr

/-! ## The sum engine -/

/-- A snapshot entry (section 4.1). `fillAtStart` is the channel's fill count at the dispatch start, one of
the inputs that R67 fixes there (log entry 9). -/
structure SnapEntry where
  channel     : ChanId
  session     : Byte
  due         : Bool
  bank        : Option BankId
  fault       : Option FaultCause
  struck      : Bool
  fillAtStart : Nat
deriving DecidableEq, Repr

/-- The result of one computed output (section 4.1). -/
structure Result where
  channel : ChanId
  value   : Output
  guard   : Bool
  clip    : Bool
deriving DecidableEq, Repr

/-- A dispatch record (section 4.1). -/
structure Dispatch where
  lane     : LaneId
  sample   : FifoEntry
  snapshot : List SnapEntry
  results  : List Result
deriving DecidableEq, Repr

/-- The sum engine (section 4.1). A ring lists its entries newest first; one that it does not list reads as
`Config.unwritten`. -/
structure Engine where
  lastServed : LaneId
  dispatch   : Option Dispatch
  rings      : Vector (List StoredWord) 16
deriving DecidableEq, Repr

/-! ## The watch unit -/

/-- Watch states (section 5.1). -/
inductive WatchState where
  | off
  | clear
  | tripped
deriving DecidableEq, Repr

/-- Watch kinds (R84). -/
inductive WatchKind where
  | above
  | below
  | outside
  | inside
deriving DecidableEq, Repr

/-- Watch actions (R90). -/
inductive WatchAction where
  | notify
  | notifyStop
deriving DecidableEq, Repr

/-- A watch record (section 5.1); the limits are signed. -/
structure Watch where
  state   : WatchState
  channel : ChanId
  kind    : WatchKind
  low     : Output
  high    : Output
  hold    : Nat
  release : Nat
  action  : WatchAction
  run     : Nat
deriving DecidableEq, Repr

/-! ## The delivery unit -/

/-- Batch slot states (section 6.1). -/
inductive SlotState where
  | free
  | filling
  | ready
  | inflight
deriving DecidableEq, Repr

/-- The flags of a batch (section 6.1). -/
structure BatchFlags where
  final    : Bool
  gap      : Bool
  settling : Bool
  guard    : Bool
  clip     : Bool
deriving DecidableEq, Repr

/-- A batch slot (section 6.1). -/
structure BatchSlot where
  state      : SlotState
  outputs    : List Output
  firstIndex : OutIndex
  sequence   : Byte
  flags      : BatchFlags
  lost       : Half
  session    : Byte
  retry      : Nat
  timer      : Timer
  beingSent  : Bool
deriving DecidableEq, Repr

/-- What the delivery unit keeps for one channel (section 6.1). The two orders name batch slots. -/
structure ChanDelivery where
  slots         : Vector BatchSlot 4
  seqCounter    : Byte
  pendingLost   : Half
  readyOrder    : List BatchId
  inflightOrder : List BatchId
  drainWatch    : Bool
deriving DecidableEq, Repr

/-! ## The transmit arbiter -/

/-- What the frame in progress was built from (section 7.1); with it goes the kind of the transmission. -/
inductive Source where
  | greeting
  | reply
  | operation (channel : ChanId)
  | notice
  | resend (channel : ChanId) (slot : BatchId)
  | batch (channel : ChanId) (slot : BatchId)
deriving DecidableEq, Repr

/-- The transmission in progress (R116). -/
structure Transmission where
  source : Source
  frame  : Frame
deriving DecidableEq, Repr

/-- The transmit arbiter (section 7.1). The transmitter is BUSY exactly while a transmission is in progress
(R116). -/
structure Arbiter where
  transmission : Option Transmission
  notices      : List Notice
  missed       : Byte
  rotation     : Vector (List ChanId) 4
deriving DecidableEq, Repr

/-! ## The whole part -/

/-- The state of the FE16, and the commands that wait. Coefficient memory lists (address, word) pairs in
strictly rising order, and no word that equals `Config.unwritten`; the pool and the resend list are the
manual's. `stopRequests` lists the channels named by the watch stop requests that are made and not yet taken,
oldest first, each channel at most once (R21, R90; log entry 12). -/
structure State where
  link     : Link
  channels : Vector Channel 16
  coeffMem : List (Nat × StoredWord)
  pool     : List PageId
  banks    : Vector Bank 32
  lanes    : Vector Lane 4
  engine   : Engine
  watches  : Vector Watch 8
  stopRequests : List ChanId
  delivery : Vector ChanDelivery 16
  resend   : List (ChanId × BatchId)
  arbiter  : Arbiter
  pending  : List Instr
deriving DecidableEq, Repr

/-! ## Reset values -/

/-- The link controller after a power reset with HRX at mark (R148). -/
def Link.reset : Link where
  rate         := 0
  gapTimeout   := 5
  assembler    := .seek
  gapTimer     := .stopped
  receiver     := .readyForStart
  rxChar       := none
  detector     := .idle
  inbound      := []
  replies      := []
  resetPending := false
  rxDiscards   := 0
  counters     := ⟨0, 0, 0, 0, 0⟩
  greeting     := true
  cause        := .power

/-- The default configuration (section 1.1). -/
def ChanConfig.default : ChanConfig where
  lane       := 0
  slot       := 0
  decimation := 1
  shift      := 15
  fraction   := false
  policy     := .sat
  batchSize  := 8
  window     := 2
  autoAck    := false
  cls        := 3
  ackTimeout := 50
  retryLimit := 3

/-- All four flags clear. -/
def Flags.none : Flags := ⟨false, false, false, false⟩

/-- All six counters 0. -/
def ChanCounters.zero : ChanCounters := ⟨0, 0, 0, 0, 0, 0⟩

/-- A channel record after a power, pin or device reset (R25). -/
def Channel.reset : Channel where
  config    := .default
  state     := .idle
  active    := Option.none
  staged    := Option.none
  session   := 0
  phase     := 0
  fill      := 0
  outIndex  := 0
  flags     := .none
  stopCause := Option.none
  opSlot    := .none
  counters  := .zero

/-- A FREE bank (R29). -/
def Bank.free : Bank := ⟨.free, 0, [], 0, 0, false⟩

/-- No bits gathered (R46). -/
def PartialWord.empty : PartialWord := ⟨[], false, none⟩

/-- A lane record after a power, pin or device reset (R61). -/
def Lane.reset : Lane := ⟨.off, 8, 0, [], [], false, 0, 0, 0, .empty⟩

/-- A watch record after a power, pin or device reset (section 5.1). -/
def Watch.reset : Watch := ⟨.off, 0, .above, 0, 0, 1, 1, .notify, 0⟩

/-- A FREE batch slot: its timer stopped and no being-sent mark (R114); the other fields carry no meaning
(R94). -/
def BatchSlot.free : BatchSlot :=
  ⟨.free, [], 0, 0, ⟨false, false, false, false, false⟩, 0, 0, 0, .stopped, false⟩

/-- The delivery state of a channel after a power, pin or device reset (R114). -/
def ChanDelivery.reset : ChanDelivery := ⟨Vector.replicate 4 .free, 0, 0, [], [], false⟩

/-- The arbiter after a power, pin or device reset (R126): class 3 holds every channel in order. -/
def Arbiter.reset : Arbiter :=
  ⟨none, [], 0, (Vector.replicate 4 []).set 3 (List.finRange 16)⟩

/-- The part right after a power reset (R148), HRX at mark. -/
def State.reset : State where
  link     := .reset
  channels := Vector.replicate 16 .reset
  coeffMem := []
  pool     := List.finRange 64
  banks    := Vector.replicate 32 .free
  lanes    := Vector.replicate 4 .reset
  engine   := ⟨3, none, Vector.replicate 16 []⟩
  watches  := Vector.replicate 8 .reset
  stopRequests := []
  delivery := Vector.replicate 16 .reset
  resend   := []
  arbiter  := .reset
  pending  := []

end Sys2Proof.Machine
end

