-- ==== Sys2Proof/Machine/Flags.lean ====
section
/-! DEFINITION. Saturating counters, the channel and batch flags, and the codes that the FE16 sends for its
enumerated values (section 9.6, R155). -/

namespace Sys2Proof.Machine

/-! ## Counters (00_scope.md, Counters) -/

/-- A 16-bit counter increased by one, saturating at 65535. -/
def inc16 (x : Half) : Half := if x = 65535 then x else x + 1

/-- An 8-bit counter increased by `n`, saturating at 255. -/
def add8 (x : Byte) (n : Nat) : Byte := BitVec.ofNat 8 (min 255 (x.toNat + n))

/-! ## Flags -/

/-- The channel's flags combined into a batch's: one set in either is set (R96). -/
def BatchFlags.carry (b : BatchFlags) (f : Flags) : BatchFlags :=
  { b with gap := b.gap || f.gap, settling := b.settling || f.settling,
           guard := b.guard || f.guard, clip := b.clip || f.clip }

/-- Bits of a byte, bit 0 first. -/
def bitsToByte (bits : List Bool) : Byte :=
  BitVec.ofNat 8 (bits.foldr (fun b acc => 2 * acc + b.toNat) 0)

/-- The flags byte of a BATCH frame: FINAL, GAP, SETTLING, GUARD, CLIP, RESEND in bits 0 to 5 (section 9.5). -/
def BatchFlags.byte (b : BatchFlags) (resend : Bool) : Byte :=
  bitsToByte [b.final, b.gap, b.settling, b.guard, b.clip, resend]

/-- The flags byte of a CHAN_QUERY body: gap, settling, guard, clip in bits 0 to 3 (section 9.4). -/
def Flags.byte (f : Flags) : Byte := bitsToByte [f.gap, f.settling, f.guard, f.clip]

/-! ## Codes (section 9.6) -/

/-- Reply status codes. -/
def Status.code : Status → Byte
  | .ok => 0
  | .accepted => 1
  | .badType => 2
  | .badLength => 3
  | .badArg => 4
  | .wrongState => 5
  | .busy => 6
  | .noSpace => 7
  | .inUse => 8
  | .sequence => 9
  | .incomplete => 10
  | .checkFail => 11

/-- DONE status codes. -/
def DoneStatus.code : DoneStatus → Byte
  | .ok => 0
  | .cancelled => 1
  | .aborted => 2
  | .faulted => 3

/-- Operation codes. -/
def Operation.code : Operation → Byte
  | .stop => 0
  | .swap => 1

/-- Channel state codes. -/
def ChanState.code : ChanState → Byte
  | .idle => 0
  | .ready => 1
  | .running => 2
  | .stopping => 3
  | .faulted => 4

/-- Stop cause codes; an absent cause is 0 (R153). -/
def stopCauseCode : Option StopCause → Byte
  | none => 0
  | some .command => 1
  | some .watch => 2

/-- Bank state codes. -/
def BankState.code : BankState → Byte
  | .free => 0
  | .opened => 1
  | .sealed => 2
  | .damaged => 3

/-- Lane state codes. -/
def LaneState.code : LaneState → Byte
  | .off => 0
  | .hunt => 1
  | .check => 2
  | .locked => 3

/-- Watch state codes. -/
def WatchState.code : WatchState → Byte
  | .off => 0
  | .clear => 1
  | .tripped => 2

/-- Watch kind codes (section 9.3). -/
def WatchKind.code : WatchKind → Byte
  | .above => 0
  | .below => 1
  | .outside => 2
  | .inside => 3

/-- The watch kind a byte names; none for a code without meaning (R152). -/
def WatchKind.ofByte (b : Byte) : Option WatchKind :=
  [WatchKind.above, .below, .outside, .inside].find? (fun k => k.code == b)

/-- Watch action codes (section 9.3). -/
def WatchAction.code : WatchAction → Byte
  | .notify => 0
  | .notifyStop => 1

/-- The watch action a byte names. -/
def WatchAction.ofByte (b : Byte) : Option WatchAction :=
  [WatchAction.notify, .notifyStop].find? (fun a => a.code == b)

/-- Range policy codes (section 9.3). -/
def RangePolicy.code : RangePolicy → Byte
  | .sat => 0
  | .wrap => 1

/-- The range policy a byte names. -/
def RangePolicy.ofByte (b : Byte) : Option RangePolicy :=
  [RangePolicy.sat, .wrap].find? (fun p => p.code == b)

/-- A one-bit field: 0 or 1. -/
def boolOfByte (b : Byte) : Option Bool := if b = 0 then some false else if b = 1 then some true else none

/-- The byte of a one-bit field. -/
def boolByte (b : Bool) : Byte := if b then 1 else 0

/-- Reset cause codes. -/
def ResetCause.code : ResetCause → Byte
  | .power => 0
  | .pin => 1
  | .command => 2
  | .link => 3

/-- LANE_LOST cause codes (section 9.5). -/
def LostCause.code : LostCause → Byte
  | .earlyMarker => 0
  | .missingMarker => 1

/-- The cause byte of MEMORY_FAULT: a bank, or 0xFF for history (section 9.5). -/
def FaultCause.code : FaultCause → Byte
  | .bank b => BitVec.ofNat 8 b.val
  | .history => 0xFF

/-- The active or staged position of a CHAN_QUERY body: 0xFF when absent (R153). -/
def bankByte : Option BankId → Byte
  | none => 0xFF
  | some b => BitVec.ofNat 8 b.val

end Sys2Proof.Machine
end

