-- ==== Sys2Proof/Machine/Operands.lean ====
section
/-! DEFINITION. The operand forms: fields of payloads, the checks the link controller makes on a payload
(R151, R152), the CRC-16, and the bytes of a frame (section 9.1). -/

namespace Sys2Proof.Machine

/-! ## Fields, least significant byte first (00_scope.md, Byte order and sign) -/

/-- Payload byte `i`. -/
def byteAt (p : List Byte) (i : Nat) : Byte := p.getD i 0

/-- The two-byte field at `i`. -/
def halfAt (p : List Byte) (i : Nat) : Half := byteAt p (i + 1) ++ byteAt p i

/-- The four-byte field at `i`. -/
def wordAt (p : List Byte) (i : Nat) : BitVec 32 := halfAt p (i + 2) ++ halfAt p i

/-- Two bytes, low byte first. -/
def halfBytes (x : Half) : List Byte := [x.extractLsb' 0 8, x.extractLsb' 8 8]

/-- Three bytes, low byte first. -/
def outputBytes (x : Output) : List Byte := [x.extractLsb' 0 8, x.extractLsb' 8 8, x.extractLsb' 16 8]

/-- Four bytes, low byte first. -/
def wordBytes (x : BitVec 32) : List Byte :=
  [x.extractLsb' 0 8, x.extractLsb' 8 8, x.extractLsb' 16 8, x.extractLsb' 24 8]

/-- A count carried in one byte. -/
def natByte (n : Nat) : Byte := BitVec.ofNat 8 n

/-- A count carried in two bytes. -/
def natBytes (n : Nat) : List Byte := halfBytes (BitVec.ofNat 16 n)

/-- A number field judged against its range 0 to `n` - 1 (R152: the owner judges the range). -/
def indexOf (n : Nat) (b : Byte) : Option (Fin n) := if h : b.toNat < n then some ⟨b.toNat, h⟩ else none

/-- The two-byte values that follow one another from `i` on, `k` of them. -/
def halvesAt (p : List Byte) (i : Nat) : Nat → List Half
  | 0 => []
  | k + 1 => halfAt p i :: halvesAt p (i + 2) k

/-! ## CRC-16 (R34) -/

/-- One shift of the CRC register: the bit shifted out decides whether 0x1021 is combined. -/
def crcShift (r : Half) : Half := if r.getMsbD 0 then (r <<< 1) ^^^ 0x1021#16 else r <<< 1

/-- One byte combined into the CRC register. -/
def crcByte (r : Half) (b : Byte) : Half := Nat.repeat crcShift 8 (r ^^^ (b ++ 0#8))

/-- The CRC-16 of a list of bytes. -/
def crc16 (bytes : List Byte) : Half := bytes.foldl crcByte 0xFFFF#16

/-! ## Frames (section 9.1, R133, R154) -/

/-- The bytes of a frame from LEN through the last payload byte. -/
def Frame.body (f : Frame) : List Byte :=
  natByte (f.payload.length + 2) :: f.type :: f.tag :: f.payload

/-- The bytes of a frame on the line. -/
def Frame.bytes (f : Frame) : List Byte :=
  Config.sync :: f.body ++ halfBytes (crc16 f.body)

/-! ## The checks before a command reaches its owner -/

/-- The payload lengths allowed for a command (R151, section 9.2). -/
def lengthOk (c : Command) (n : Nat) : Bool :=
  match c with
  | .ping => n ≤ 16
  | .bankData => 6 ≤ n && n ≤ 68 && n % 2 == 0
  | .bankOpen => n == 4
  | .bankSeal => n == 4
  | .laneSet => n == 4
  | .chanConfig => n == 14
  | .watchSet => n == 14
  | .deviceReset => n == 2
  | .linkSet => n == 2
  | .deviceQuery => n == 2
  | .bankFree => n == 2
  | .bankQuery => n == 2
  | .laneQuery => n == 2
  | .chanBind => n == 2
  | .chanStart => n == 2
  | .chanStop => n == 2
  | .chanAbort => n == 2
  | .chanClear => n == 2
  | .chanSwap => n == 2
  | .chanQuery => n == 2
  | .chanRotate => n == 2
  | .watchOff => n == 2
  | .watchQuery => n == 2

/-- The clear flag byte: its bits 1 to 7 are reserved (R152). -/
def clearByteOk (p : List Byte) : Bool := (byteAt p 1).toNat < 2

/-- The clear flag of a query (section 9.3). -/
def clearFlag (p : List Byte) : Bool := (byteAt p 1).getLsbD 0

/-- Every reserved byte and bit of the payload is 0 (R152, section 9.3). -/
def reservedOk (c : Command) (p : List Byte) : Bool :=
  match c with
  | .deviceReset => byteAt p 0 == 0 && byteAt p 1 == 0
  | .deviceQuery => byteAt p 0 == 0 && clearByteOk p
  | .bankOpen => byteAt p 1 == 0
  | .bankData => byteAt p 1 == 0
  | .bankSeal => byteAt p 1 == 0
  | .bankFree => byteAt p 1 == 0
  | .laneSet => byteAt p 3 == 0
  | .chanStart => byteAt p 1 == 0
  | .chanStop => byteAt p 1 == 0
  | .chanAbort => byteAt p 1 == 0
  | .chanClear => byteAt p 1 == 0
  | .watchOff => byteAt p 1 == 0
  | .bankQuery => clearByteOk p
  | .laneQuery => clearByteOk p
  | .chanQuery => clearByteOk p
  | .watchQuery => clearByteOk p
  | .ping => true
  | .linkSet => true
  | .chanConfig => true
  | .chanBind => true
  | .chanSwap => true
  | .chanRotate => true
  | .watchSet => true

/-- The body of a refused reply whose command has a recognised type and an allowed length: zero in every
byte, but for the page entries of BANK_OPEN and BANK_QUERY (R153, section 9.4). The owners of BANK_DATA and
BANK_SEAL put their own values in its place. -/
def refusalBody (c : Command) : List Byte :=
  match c with
  | .linkSet => List.replicate 2 0
  | .deviceQuery => List.replicate 16 0
  | .bankOpen => List.replicate 2 0 ++ List.replicate 4 0xFF
  | .bankData => List.replicate 2 0
  | .bankSeal => List.replicate 2 0
  | .bankQuery => List.replicate 8 0 ++ List.replicate 4 0xFF ++ [0]
  | .laneQuery => List.replicate 12 0
  | .chanQuery => List.replicate 49 0
  | .watchQuery => List.replicate 15 0
  | .ping => []
  | .deviceReset => []
  | .bankFree => []
  | .laneSet => []
  | .chanConfig => []
  | .chanBind => []
  | .chanStart => []
  | .chanStop => []
  | .chanAbort => []
  | .chanClear => []
  | .chanSwap => []
  | .chanRotate => []
  | .watchSet => []
  | .watchOff => []

end Sys2Proof.Machine
end

