-- ==== Sys2Proof/Machine/Ops.lean ====
section
/-! DEFINITION. The operations that every family shares: reading and writing the records of State, the notice
queue, coefficient memory, the page pool, references, the rotation lists, the taking of a command with its
one reply, and the resets of the blocks. -/

namespace Sys2Proof.Machine

/-! ## Records: one reader and one writer for each table -/

/-- Channel record `c`. -/
def State.chan (s : State) (c : ChanId) : Channel := s.channels[c.val]

/-- Channel record `c` replaced by its image. -/
def State.modChan (s : State) (c : ChanId) (f : Channel → Channel) : State :=
  { s with channels := s.channels.set c.val (f s.channels[c.val]) }

/-- Bank record `b`. -/
def State.bank (s : State) (b : BankId) : Bank := s.banks[b.val]

/-- Bank record `b` replaced by its image. -/
def State.modBank (s : State) (b : BankId) (f : Bank → Bank) : State :=
  { s with banks := s.banks.set b.val (f s.banks[b.val]) }

/-- Lane record `l`. -/
def State.lane (s : State) (l : LaneId) : Lane := s.lanes[l.val]

/-- Lane record `l` replaced by its image. -/
def State.modLane (s : State) (l : LaneId) (f : Lane → Lane) : State :=
  { s with lanes := s.lanes.set l.val (f s.lanes[l.val]) }

/-- Watch record `w`. -/
def State.watch (s : State) (w : WatchId) : Watch := s.watches[w.val]

/-- Watch record `w` replaced by its image. -/
def State.modWatch (s : State) (w : WatchId) (f : Watch → Watch) : State :=
  { s with watches := s.watches.set w.val (f s.watches[w.val]) }

/-- Delivery record of channel `c`. -/
def State.deliv (s : State) (c : ChanId) : ChanDelivery := s.delivery[c.val]

/-- Delivery record of channel `c` replaced by its image. -/
def State.modDeliv (s : State) (c : ChanId) (f : ChanDelivery → ChanDelivery) : State :=
  { s with delivery := s.delivery.set c.val (f s.delivery[c.val]) }

/-- History ring of channel `c`, newest first. -/
def State.ring (s : State) (c : ChanId) : List StoredWord := s.engine.rings[c.val]

/-- History ring of channel `c` replaced by its image. -/
def State.modRing (s : State) (c : ChanId) (f : List StoredWord → List StoredWord) : State :=
  { s with engine := { s.engine with rings := s.engine.rings.set c.val (f s.engine.rings[c.val]) } }

/-- The dispatch record replaced. -/
def State.setDispatch (s : State) (d : Option Dispatch) : State :=
  { s with engine := { s.engine with dispatch := d } }

/-- The link controller replaced by its image. -/
def State.modLink (s : State) (f : Link → Link) : State := { s with link := f s.link }

/-- The arbiter replaced by its image. -/
def State.modArb (s : State) (f : Arbiter → Arbiter) : State := { s with arbiter := f s.arbiter }

/-- Batch slot `b` of a delivery record. -/
def ChanDelivery.slot (d : ChanDelivery) (b : BatchId) : BatchSlot := d.slots[b.val]

/-- Batch slot `b` replaced by its image. -/
def ChanDelivery.modSlot (d : ChanDelivery) (b : BatchId) (f : BatchSlot → BatchSlot) : ChanDelivery :=
  { d with slots := d.slots.set b.val (f d.slots[b.val]) }

/-! ## Sets kept as ascending lists -/

/-- `x` entered into a set that is listed in ascending order; one already there remains once. -/
def insertAsc {n : Nat} (x : Fin n) : List (Fin n) → List (Fin n)
  | [] => [x]
  | y :: ys => if x < y then x :: y :: ys else if x = y then y :: ys else y :: insertAsc x ys

/-! ## Notices (R121) -/

/-- A notice raised: queued when fewer than 16 wait, else dropped and counted. -/
def State.raise (s : State) (n : Notice) : State :=
  s.modArb fun a =>
    if a.notices.length < Config.noticeCapacity then { a with notices := a.notices ++ [n] }
    else { a with missed := add8 a.missed 1 }

/-- Several notices raised in order, each judged against the queue as the ones before it left it. -/
def State.raiseAll (s : State) (ns : List Notice) : State := ns.foldl State.raise s

/-- A state together with the notices that the event raises on its way, in order. -/
abbrev Raising := State × List Notice

/-- The notices of an event enter the queue. -/
def Raising.settle (r : Raising) : State := r.1.raiseAll r.2

/-- One operation after another, the notices in that order. -/
def Raising.andThen (r : Raising) (f : State → Raising) : Raising := ((f r.1).1, r.2 ++ (f r.1).2)

/-! ## Coefficient memory (R27) -/

/-- The word at an address; an address that is not listed reads as `Config.unwritten`. -/
def memRead : List (Nat × StoredWord) → Nat → StoredWord
  | [], _ => Config.unwritten
  | (b, w) :: m, a => if a = b then w else memRead m a

/-- A cell in front of a memory, unless it equals what an unlisted address reads as. -/
def memCons (a : Nat) (w : StoredWord) (m : List (Nat × StoredWord)) : List (Nat × StoredWord) :=
  if w = Config.unwritten then m else (a, w) :: m

/-- A word written, the canonical form kept. -/
def memWrite : List (Nat × StoredWord) → Nat → StoredWord → List (Nat × StoredWord)
  | [], a, w => memCons a w []
  | (b, v) :: m, a, w =>
    if a < b then memCons a w ((b, v) :: m)
    else if a = b then memCons a w m
    else (b, v) :: memWrite m a w

/-- The canonical form: addresses strictly rising, and no cell equal to what an unlisted address reads as. -/
def Memory.wf : List (Nat × StoredWord) → Bool
  | [] => true
  | (a, w) :: m => w != Config.unwritten && m.all (fun c => a < c.1) && Memory.wf m

/-- Pages a bank of `t` taps needs. -/
def pagesFor (t : Nat) : Nat := (t + 63) / 64

/-- Where coefficient `k` of a bank is stored: page `k` div 64 of its page list, word `k` mod 64 (R27). -/
def Bank.address (b : Bank) (k : Nat) : Option Nat :=
  (b.pages[k / Config.pageWords]?).map fun p => p.val * Config.pageWords + k % Config.pageWords

/-- Coefficient `k` of a bank as stored. -/
def State.coeff (s : State) (b : Bank) (k : Nat) : StoredWord :=
  match b.address k with
  | some a => memRead s.coeffMem a
  | none => Config.unwritten

/-- Coefficient `k` of a bank stored. -/
def State.setCoeff (s : State) (b : Bank) (k : Nat) (w : StoredWord) : State :=
  match b.address k with
  | some a => { s with coeffMem := memWrite s.coeffMem a w }
  | none => s

/-- Coefficients stored in order from `k` on, each with a fresh parity mark (R33). -/
def State.storeCoeffs (s : State) (b : Bank) (k : Nat) : List Sample → State
  | [] => s
  | x :: xs => (s.setCoeff b k ⟨x, true⟩).storeCoeffs b (k + 1) xs

/-! ## References (R37, R38) -/

/-- The bank store's judgement of a bank named by CHAN_BIND or CHAN_SWAP: the refusal, if any. -/
def State.judge (s : State) (b : BankId) : Option Status :=
  match (s.bank b).state with
  | .free => some .badArg
  | .opened => some .wrongState
  | .damaged => some .wrongState
  | .sealed => none

/-- A claim that adds one to a bank's reference count. -/
def State.addRef (s : State) (b : BankId) : State := s.modBank b fun k => { k with refs := k.refs + 1 }

/-- A claim that subtracts one from a bank's reference count. -/
def State.dropRef (s : State) (b : BankId) : State := s.modBank b fun k => { k with refs := k.refs - 1 }

/-- A claim that subtracts one from the bank named, if one is. -/
def State.dropRef? (s : State) : Option BankId → State
  | none => s
  | some b => s.dropRef b

/-- A staged bank released (R19, R21, R22). -/
def State.releaseStaged (s : State) (c : ChanId) : State :=
  (s.dropRef? (s.chan c).staged).modChan c fun ch => { ch with staged := none }

/-! ## Operation slots (R11) -/

/-- A pending operation ends with a status; any other slot is left unchanged. -/
def OpSlot.finish (status : DoneStatus) : OpSlot → OpSlot
  | .pending op tag => .unreported op tag status
  | o => o

/-- A pending operation of kind `op` ends with a status; any other slot is left unchanged. -/
def OpSlot.finishOp (op : Operation) (status : DoneStatus) : OpSlot → OpSlot
  | .pending op' tag => if op' = op then .unreported op' tag status else .pending op' tag
  | o => o

/-- Whether the slot is UNREPORTED. -/
def OpSlot.isUnreported : OpSlot → Bool
  | .unreported _ _ _ => true
  | _ => false

/-! ## Rotation lists (R7, R24, R123) -/

/-- The rotation list of a class. -/
def Arbiter.list (a : Arbiter) (k : ClassId) : List ChanId := a.rotation[k.val]

/-- The rotation list of a class replaced by its image. -/
def Arbiter.modList (a : Arbiter) (k : ClassId) (f : List ChanId → List ChanId) : Arbiter :=
  { a with rotation := a.rotation.set k.val (f a.rotation[k.val]) }

/-- The other channels of a list, in their order. -/
def others (c : ChanId) (l : List ChanId) : List ChanId := l.filter (· != c)

/-- A channel moved to the tail of its class's list. -/
def Arbiter.toTail (a : Arbiter) (c : ChanId) (k : ClassId) : Arbiter :=
  a.modList k fun l => others c l ++ [c]

/-- A channel moved to the head of its class's list. -/
def Arbiter.toHead (a : Arbiter) (c : ChanId) (k : ClassId) : Arbiter :=
  a.modList k fun l => c :: others c l

/-- A class change: a channel keeps its place when the class stays, else it goes to the tail of the new list. -/
def Arbiter.changeClass (a : Arbiter) (c : ChanId) (old new : ClassId) : Arbiter :=
  if old = new then a else (a.modList old (others c)).modList new (· ++ [c])

/-! ## The taking of a command (R136, R137) -/

/-- What the owner of a command answers: the state after, the reply's status and body, and the notices the
taking raises. -/
structure Answer where
  state  : State
  status : Status
  body   : List Byte
  raised : List Notice

/-- A refusal changes no state (R5, R31). -/
def Answer.refuse (c : Command) (status : Status) (s : State) : Answer := ⟨s, status, refusalBody c, []⟩

/-- A command carried out whose reply has no body. -/
def Answer.done (status : Status) (s : State) : Answer := ⟨s, status, [], []⟩

/-- A reply queued: rx_discards is copied into it and becomes 0 (R137). -/
def State.queueReply (s : State) (tag type : Byte) (status : Status) (body : List Byte) : State :=
  s.modLink fun k =>
    { k with replies := k.replies ++ [⟨tag, type, status, body, k.rxDiscards⟩], rxDiscards := 0 }

/-- A frame can be taken: it stands at the head of the inbound queue, the reply queue has room and no device
reset is pending (R136). -/
def State.canTake (s : State) (f : Frame) : Bool :=
  s.link.inbound.head? == some f && s.link.replies.length < Config.replyCapacity && !s.link.resetPending

/-- The frame at the head leaves the inbound queue. -/
def State.popInbound (s : State) : State := s.modLink fun k => { k with inbound := k.inbound.tail }

/-- The judgement of a command that has left the queue: the checks of length and reserved bytes, then its
owner (R136, R151, R152). -/
def State.judgeCommand (s : State) (c : Command) (p : List Byte) (owner : State → Answer) : Answer :=
  if !lengthOk c p.length then ⟨s, .badLength, [], []⟩
  else if !reservedOk c p then Answer.refuse c .badArg s
  else owner s

/-- The taking of a command as one event: its frame leaves the queue, it is judged, the notices it raises
enter their queue and its one reply is queued. A frame that cannot be taken waits: nothing happens (log
entries 1 and 2). -/
def State.take (s : State) (c : Command) (tag : Byte) (p : List Byte) (owner : State → Answer) : State :=
  if s.canTake ⟨c.code, tag, p⟩ then
    let a := s.popInbound.judgeCommand c p owner
    (a.state.raiseAll a.raised).queueReply tag c.code a.status a.body
  else s

/-! ## The blocks across a power, pin or device reset (R25, R44, R61, R81, R93, R114, R126) -/

/-- Every block but the link controller returned to its initial values. Coefficient memory and the history
rings keep their contents (R27, R63); the commands that wait are not the block's. Watch stop requests that wait
are dropped (log entry 12). -/
def State.resetBlocks (s : State) : State :=
  { State.reset with
    link := s.link
    coeffMem := s.coeffMem
    engine := { State.reset.engine with rings := s.engine.rings }
    pending := s.pending }

/-- The device reset performed (R144): the line rate, the gap timeout, the link counters, the receiver and the
break detector are kept. -/
def State.performDeviceReset (s : State) : State :=
  s.resetBlocks.modLink fun k =>
    { k with
      inbound := [], replies := [], rxDiscards := 0, assembler := .seek, gapTimer := .stopped,
      resetPending := false, cause := .command, greeting := true }

/-- A power or pin reset (R148); the break detector starts in SPACE if HRX is at space as the reset ends
(R145). -/
def State.performPowerReset (s : State) (cause : ResetCause) (hrxSpace : Bool) : State :=
  s.resetBlocks.modLink fun _ =>
    { Link.reset with cause := cause, detector := if hrxSpace then .space else .idle }

end Sys2Proof.Machine
end

