-- ==== Sys2Proof/Machine/Banks.lean ====
section
/-! DEFINITION. The bank store's commands (02_the_coefficient_bank_store.md). -/

namespace Sys2Proof.Machine

/-- A page list as four entries, the unused ones 0xFF, with its length before them (section 9.4). -/
def pageEntries (pages : List PageId) : List Byte :=
  natByte pages.length ::
    (pages.map (fun p => natByte p.val) ++ List.replicate (4 - pages.length) 0xFF)

/-- A bank opened for `t` taps with the lowest free pages (R28, R32). -/
def State.openBank (s : State) (b : BankId) (t : Nat) : State :=
  { s.modBank b (fun k =>
      { k with state := .opened, taps := t, pages := s.pool.take (pagesFor t), loaded := 0 }) with
    pool := s.pool.drop (pagesFor t) }

/-- BANK_OPEN as the bank store takes it (R32). -/
def bankOpenOwner (p : List Byte) (s : State) : Answer :=
  match indexOf 32 (byteAt p 0) with
  | none => .refuse .bankOpen .badArg s
  | some b =>
    if (s.bank b).state ≠ .free then .refuse .bankOpen .inUse s
    else
      let t := (halfAt p 2).toNat
      if ¬ (1 ≤ t ∧ t ≤ 256) then .refuse .bankOpen .badArg s
      else if s.pool.length < pagesFor t then .refuse .bankOpen .noSpace s
      else
        let s' := s.openBank b t
        ⟨s', .ok, natByte s'.pool.length :: pageEntries (s'.bank b).pages, []⟩

/-- BANK_OPEN. -/
def execBankOpen (tag : Byte) (p : List Byte) (s : State) : Host.Outcome State Fault Refusal :=
  .next (s.take .bankOpen tag p (bankOpenOwner p))

/-- BANK_DATA as the bank store takes it (R33). Whatever the status, an OPEN bank's reply reports its loaded
value; the count of coefficients is fixed by the length. -/
def bankDataOwner (p : List Byte) (s : State) : Answer :=
  match indexOf 32 (byteAt p 0) with
  | none => .refuse .bankData .badArg s
  | some b =>
    let k := s.bank b
    if k.state ≠ .opened then .refuse .bankData .wrongState s
    else
      let offset := (halfAt p 2).toNat
      let count := (p.length - 4) / 2
      if offset ≠ k.loaded then ⟨s, .sequence, natBytes k.loaded, []⟩
      else if k.taps < offset + count then ⟨s, .badArg, natBytes k.loaded, []⟩
      else
        let s' := (s.storeCoeffs k offset (halvesAt p 4 count)).modBank b fun k =>
          { k with loaded := k.loaded + count }
        ⟨s', .ok, natBytes (k.loaded + count), []⟩

/-- BANK_DATA. -/
def execBankData (tag : Byte) (p : List Byte) (s : State) : Host.Outcome State Fault Refusal :=
  .next (s.take .bankData tag p (bankDataOwner p))

/-- The coefficients of a bank as read back in order (R35). -/
def State.readBack (s : State) (k : Bank) : List StoredWord := (List.range k.taps).map (s.coeff k)

/-- The bank checksum: the CRC-16 of the coefficient bytes, each low byte first (R34). -/
def checksum (ws : List StoredWord) : Half := crc16 (ws.flatMap fun w => halfBytes w.value)

/-- Words of a bank that have gone bad since they were written: the value read, and a mark that fails (log
entry 8). Only the bank's own coefficients can be found so at its read-back. -/
def State.upsetCoeffs (s : State) (k : Bank) (upsets : List (Fin 256 × Sample)) : State :=
  upsets.foldl (fun s u => if u.1.val < k.taps then s.setCoeff k u.1.val ⟨u.2, false⟩ else s) s

/-- BANK_SEAL as the bank store takes it (R35). -/
def bankSealOwner (p : List Byte) (upsets : List (Fin 256 × Sample)) (s : State) : Answer :=
  match indexOf 32 (byteAt p 0) with
  | none => .refuse .bankSeal .badArg s
  | some b =>
    let k := s.bank b
    if k.state ≠ .opened then .refuse .bankSeal .wrongState s
    else if k.loaded ≠ k.taps then .refuse .bankSeal .incomplete s
    else
      let s := s.upsetCoeffs k upsets
      let ws := s.readBack k
      if ws.all (·.markGood) && checksum ws == halfAt p 2 then
        ⟨s.modBank b fun k => { k with state := .sealed }, .ok, halfBytes (checksum ws), []⟩
      else
        ⟨s.modBank b fun k => { k with loaded := 0 }, .checkFail, halfBytes (checksum ws), []⟩

/-- BANK_SEAL. -/
def execBankSeal (tag : Byte) (p : List Byte) (upsets : List (Fin 256 × Sample)) (s : State) :
    Host.Outcome State Fault Refusal :=
  .next (s.take .bankSeal tag p (bankSealOwner p upsets))

/-- A bank and its pages returned to the free state (R36). -/
def State.freeBank (s : State) (b : BankId) : State :=
  { s.modBank b (fun _ => .free) with pool := (s.bank b).pages.foldl (fun l x => insertAsc x l) s.pool }

/-- BANK_FREE as the bank store takes it (R36). -/
def bankFreeOwner (p : List Byte) (s : State) : Answer :=
  match indexOf 32 (byteAt p 0) with
  | none => .refuse .bankFree .badArg s
  | some b =>
    if (s.bank b).state = .free then .refuse .bankFree .wrongState s
    else if 0 < (s.bank b).refs then .refuse .bankFree .inUse s
    else if (s.bank b).hold then .refuse .bankFree .busy s
    else .done .ok (s.freeBank b)

/-- BANK_FREE. -/
def execBankFree (tag : Byte) (p : List Byte) (s : State) : Host.Outcome State Fault Refusal :=
  .next (s.take .bankFree tag p (bankFreeOwner p))

/-- The loaded value a query reports: T once every coefficient is stored (R29, R43). -/
def Bank.reportedLoaded (k : Bank) : Nat :=
  match k.state with
  | .free => 0
  | .opened => k.loaded
  | .sealed => k.taps
  | .damaged => k.taps

/-- The body of a BANK_QUERY reply (section 9.4). -/
def Bank.report (k : Bank) (freePages : Nat) : List Byte :=
  k.state.code :: natBytes k.taps ++ natBytes k.reportedLoaded ++ [natByte k.refs, boolByte k.hold] ++
    pageEntries k.pages ++ [natByte freePages]

/-- BANK_QUERY as the bank store takes it (R43): the clear flag has no effect. -/
def bankQueryOwner (p : List Byte) (s : State) : Answer :=
  match indexOf 32 (byteAt p 0) with
  | none => .refuse .bankQuery .badArg s
  | some b => ⟨s, .ok, (s.bank b).report s.pool.length, []⟩

/-- BANK_QUERY. -/
def execBankQuery (tag : Byte) (p : List Byte) (s : State) : Host.Outcome State Fault Refusal :=
  .next (s.take .bankQuery tag p (bankQueryOwner p))

end Sys2Proof.Machine
end

