-- ==== Sys2Proof/Machine/Device.lean ====
section
/-! DEFINITION. The device-level commands (section 8.5) and the refusal of an unknown type. -/

namespace Sys2Proof.Machine

/-- PING as the link controller takes it: the payload comes back (R138). -/
def pingOwner (p : List Byte) (s : State) : Answer := ⟨s, .ok, p, []⟩

/-- PING. -/
def execPing (tag : Byte) (p : List Byte) (s : State) : Host.Outcome State Fault Refusal :=
  .next (s.take .ping tag p (pingOwner p))

/-- DEVICE_RESET as the link controller takes it: the device reset becomes pending (R143). -/
def deviceResetOwner (s : State) : Answer := .done .ok (s.modLink fun k => { k with resetPending := true })

/-- DEVICE_RESET. -/
def execDeviceReset (tag : Byte) (p : List Byte) (s : State) : Host.Outcome State Fault Refusal :=
  .next (s.take .deviceReset tag p deviceResetOwner)

/-- LINK_SET as the link controller takes it: the values are placed in the reply, and nothing else changes
(R139). -/
def linkSetOwner (p : List Byte) (s : State) : Answer :=
  if (byteAt p 0).toNat ≤ 5 ∧ 1 ≤ (byteAt p 1).toNat ∧ (byteAt p 1).toNat ≤ 50 then
    ⟨s, .ok, [byteAt p 0, byteAt p 1], []⟩
  else .refuse .linkSet .badArg s

/-- LINK_SET. -/
def execLinkSet (tag : Byte) (p : List Byte) (s : State) : Host.Outcome State Fault Refusal :=
  .next (s.take .linkSet tag p (linkSetOwner p))

/-- The body of a DEVICE_QUERY reply (section 9.4). -/
def State.deviceReport (s : State) : List Byte :=
  let k := s.link
  [k.cause.code, natByte k.rate.val, natByte k.gapTimeout, 0] ++ halfBytes k.counters.crcErrors ++
    halfBytes k.counters.truncated ++ halfBytes k.counters.framing ++ halfBytes k.counters.queueFull ++
    halfBytes k.counters.malformedAcks ++ [natByte s.pool.length, s.arbiter.missed]

/-- DEVICE_QUERY as the link controller takes it (R142): the missed count stays as it is. -/
def deviceQueryOwner (p : List Byte) (s : State) : Answer :=
  ⟨if clearFlag p then s.modLink fun k => { k with counters := ⟨0, 0, 0, 0, 0⟩ } else s,
   .ok, s.deviceReport, []⟩

/-- DEVICE_QUERY. -/
def execDeviceQuery (tag : Byte) (p : List Byte) (s : State) : Host.Outcome State Fault Refusal :=
  .next (s.take .deviceQuery tag p (deviceQueryOwner p))

/-- BAD_TYPE: a taken frame whose TYPE is no host command code (step 1 of R136, R151). Its reply repeats the
code and has no body (R153). -/
def execBadType (type tag : Byte) (p : List Byte) (s : State) : Host.Outcome State Fault Refusal :=
  .next <|
    if s.canTake ⟨type, tag, p⟩ && (Command.ofCode type).isNone then
      s.popInbound.queueReply tag type .badType []
    else s

end Sys2Proof.Machine
end

