-- ==== Sys2Proof/Machine/Delivery.lean ====
section
/-! DEFINITION. The delivery unit (06_result_batches_and_acknowledgement.md): filling, closing, discarding,
acknowledging and timing batches, the drain, and the channel controller's side of a drain report. -/

namespace Sys2Proof.Machine

/-- The lowest-numbered slot in a state. -/
def ChanDelivery.lowest (d : ChanDelivery) (st : SlotState) : Option BatchId :=
  (List.finRange 4).find? fun b => (d.slot b).state == st

/-- How many slots are in a state (R23). -/
def ChanDelivery.count (d : ChanDelivery) (st : SlotState) : Nat :=
  (List.finRange 4).countP fun b => (d.slot b).state == st

/-- No batch in READY or INFLIGHT (R15, R110). -/
def ChanDelivery.drained (d : ChanDelivery) : Bool := d.count .ready == 0 && d.count .inflight == 0

/-! ## Filling (R96 to R98) -/

/-- A batch becomes READY: it takes the sequence counter and joins the tail of the ready order (R98). -/
def ChanDelivery.makeReady (d : ChanDelivery) (b : BatchId) (final : Bool) : ChanDelivery :=
  { d.modSlot b (fun t =>
      { t with state := .ready, sequence := d.seqCounter, flags := { t.flags with final := final } }) with
    seqCounter := d.seqCounter + 1
    readyOrder := d.readyOrder ++ [b] }

/-- A batch opened by an output (R96): it takes the pending lost count. -/
def ChanDelivery.openBatch (d : ChanDelivery) (b : BatchId) (session : Byte) (index : OutIndex)
    (v : Output) : ChanDelivery :=
  { d.modSlot b (fun _ =>
      { BatchSlot.free with
        state := .filling, outputs := [v], firstIndex := index, session := session,
        lost := d.pendingLost }) with
    pendingLost := 0 }

/-- The batch that takes the next output, opened if need be; none when the output is lost (R96, R97). -/
def ChanDelivery.place (d : ChanDelivery) (session : Byte) (index : OutIndex) (v : Output) :
    Option (BatchId × ChanDelivery) :=
  match d.lowest .filling with
  | some b => some (b, d.modSlot b fun t => { t with outputs := t.outputs ++ [v] })
  | none =>
    match d.lowest .free with
    | some b => some (b, d.openBatch b session index v)
    | none => none

/-- The flags are carried into the batch, and it becomes READY when it holds N outputs (R96). -/
def ChanDelivery.finishAppend (d : ChanDelivery) (b : BatchId) (flags : Flags) (n : Nat) : ChanDelivery :=
  let d' := d.modSlot b fun t => { t with flags := t.flags.carry flags }
  if n ≤ (d'.slot b).outputs.length then d'.makeReady b false else d'

/-- An output with no slot to take it (R97). -/
def State.loseOutput (s : State) (c : ChanId) : Raising :=
  let d := s.deliv c
  let full := d.pendingLost = 65535
  ((s.modDeliv c fun d => { d with pendingLost := (if full then 0 else d.pendingLost) + 1 }).modChan c
      fun ch => { ch with counters := { ch.counters with outputsLost := inc16 ch.counters.outputsLost } },
   if full then [.deliveryLost c d.seqCounter 65535] else [])

/-- An output appended (R96, R97). -/
def State.append (s : State) (c : ChanId) (index : OutIndex) (v : Output) : Raising :=
  let ch := s.chan c
  match (s.deliv c).place ch.session index v with
  | some (b, d) =>
    ((s.modDeliv c fun _ => d.finishAppend b ch.flags ch.config.batchSize).modChan c
        fun ch => { ch with flags := .none }, [])
  | none => s.loseOutput c

/-! ## The drain (R15, R110) -/

/-- The drain report, taken by the channel controller (R15). -/
def State.drainReport (s : State) (c : ChanId) : Raising :=
  match (s.chan c).state, (s.chan c).stopCause with
  | .stopping, some .command =>
    (s.modChan c fun ch =>
      { ch with state := .ready, stopCause := none, opSlot := ch.opSlot.finishOp .stop .ok }, [])
  | .stopping, some .watch =>
    (s.modChan c fun ch => { ch with state := .ready, stopCause := none }, [.channelStopped c])
  | _, _ => (s, [])

/-- The drain checked, if the drain watch is on (R110). -/
def State.checkDrain (s : State) (c : ChanId) : Raising :=
  if (s.deliv c).drainWatch && (s.deliv c).drained then
    (s.modDeliv c fun d => { d with drainWatch := false }).drainReport c
  else (s, [])

/-! ## The close of a stop (R14, R99) -/

/-- What the close does to the batches: a FILLING batch becomes READY with FINAL, or a pending lost count is
reported. -/
def State.closeFilling (s : State) (c : ChanId) : Raising :=
  let d := s.deliv c
  match d.lowest .filling with
  | some b => (s.modDeliv c fun d => d.makeReady b true, [])
  | none =>
    if d.pendingLost = 0 then (s, [])
    else (s.modDeliv c fun d => { d with pendingLost := 0 },
          [.deliveryLost c d.seqCounter (d.pendingLost.zeroExtend 32)])

/-- The close (R99): once per stop, then the drain watch is on and the drain is checked. -/
def State.closeBatch (s : State) (c : ChanId) : Raising :=
  if (s.deliv c).drainWatch then (s, [])
  else
    ((s.closeFilling c).andThen fun s =>
      (s.modDeliv c fun d => { d with drainWatch := true }, [])).andThen fun s => s.checkDrain c

/-! ## Discard (R111) -/

/-- Every batch of the channel freed at once. -/
def State.discard (s : State) (c : ChanId) : State :=
  let s := s.modDeliv c fun d =>
    { d with slots := Vector.replicate 4 .free, pendingLost := 0, readyOrder := [], inflightOrder := [],
             drainWatch := false }
  { s with resend := s.resend.filter fun e => e.1 != c }

/-! ## Acknowledgement (R104) -/

/-- Slots freed. -/
def ChanDelivery.freeSlots (d : ChanDelivery) (bs : List BatchId) : ChanDelivery :=
  bs.foldl (fun d b => d.modSlot b fun _ => .free) d

/-- The place in the in-flight order of the INFLIGHT batch with sequence `q`. -/
def ChanDelivery.inflightWith (d : ChanDelivery) (q : Byte) : Option Nat :=
  d.inflightOrder.findIdx? fun b => (d.slot b).state == .inflight && (d.slot b).sequence == q

/-- The slots an ACK naming sequence `q` frees: the batch named and those before it in the in-flight order. -/
def ChanDelivery.acknowledged (d : ChanDelivery) (q : Byte) : List BatchId :=
  match d.inflightWith q with
  | some i => d.inflightOrder.take (i + 1)
  | none => []

/-- An ACK taken for channel `c` and sequence `q`. -/
def State.acknowledge (s : State) (c : ChanId) (q : Byte) : Raising :=
  match (s.deliv c).inflightWith q with
  | none => (s, [.staleAck c q])
  | some i =>
    let freed := (s.deliv c).inflightOrder.take (i + 1)
    let s := s.modDeliv c fun d =>
      { d.freeSlots freed with inflightOrder := d.inflightOrder.drop (i + 1) }
    { s with resend := s.resend.filter fun e => !(e.1 == c && freed.contains e.2) }.checkDrain c

/-! ## Ack timers (R105, R106, R108) -/

/-- A batch dropped at its retry limit (R108). -/
def State.dropBatch (s : State) (c : ChanId) (b : BatchId) : Raising :=
  let t := (s.deliv c).slot b
  let s := s.modDeliv c fun d =>
    { d.modSlot b (fun _ => .free) with inflightOrder := d.inflightOrder.filter (· != b) }
  let s := s.modChan c fun ch =>
    { ch with counters := { ch.counters with batchesDropped := inc16 ch.counters.batchesDropped } }
  Raising.andThen (s, [.deliveryLost c t.sequence (BitVec.ofNat 32 (t.outputs.length + t.lost.toNat))])
    fun s => s.checkDrain c

/-- An ack timer runs: the batch is INFLIGHT and its timer is running. -/
def ChanDelivery.timed (d : ChanDelivery) (b : BatchId) : Bool :=
  (d.slot b).state == .inflight && (d.slot b).timer != .stopped

/-- ACK_TIMER_EXPIRY (R106). A timer that does not run does not expire (log entry 1). -/
def execAckTimerExpiry (c : ChanId) (b : BatchId) (s : State) : Host.Outcome State Fault Refusal :=
  .next <|
    if (s.deliv c).timed b then
      if ((s.deliv c).slot b).retry < (s.chan c).config.retryLimit then
        let s := s.modDeliv c fun d =>
          d.modSlot b fun t => { t with retry := t.retry + 1, timer := .stopped }
        { s with resend := s.resend ++ [(c, b)] }
      else (s.dropBatch c b).settle
    else s

/-! ## Ends of transmissions (R102, R103, R112) -/

/-- The ack timer of a batch that is treated as sent starts for the channel's ack timeout. -/
def State.startTimer (s : State) (c : ChanId) (b : BatchId) : State :=
  s.modDeliv c fun d =>
    d.modSlot b fun t => { t with beingSent := false, timer := .running (s.chan c).config.ackTimeout }

/-- The send completion of a batch (R102). A batch that is gone has no being-sent mark (R103). -/
def State.batchSent (s : State) (c : ChanId) (b : BatchId) : Raising :=
  let t := (s.deliv c).slot b
  if t.beingSent then
    match t.state with
    | .inflight => (s.startTimer c b, [])
    | .ready => (s.modDeliv c fun d => d.modSlot b fun _ => .free).checkDrain c
    | .free => (s, [])
    | .filling => (s, [])
  else (s, [])

/-- The transmission of a batch abandoned at a link reset (R112). -/
def State.batchAbandoned (s : State) (c : ChanId) (b : BatchId) : State :=
  let t := (s.deliv c).slot b
  if t.beingSent then
    match t.state with
    | .inflight => s.startTimer c b
    | .ready =>
      s.modDeliv c fun d =>
        { d.modSlot b (fun t => { t with beingSent := false }) with readyOrder := b :: d.readyOrder }
    | .free => s
    | .filling => s
  else s

end Sys2Proof.Machine
end

