-- ==== Sys2Proof/Machine/Watches.lean ====
section
/-! DEFINITION. The watch unit (05_output_watches.md): conditions, evaluation of outputs, and the watch
commands. -/

namespace Sys2Proof.Machine

/-! ## Evaluation (R84, R87, R88) -/

/-- The condition of a watch on an output value, in signed comparisons (R84). -/
def Watch.condition (w : Watch) (v : Output) : Bool :=
  match w.kind with
  | .above => w.high.slt v
  | .below => v.slt w.low
  | .outside => v.slt w.low || w.high.slt v
  | .inside => w.low.sle v && v.sle w.high

/-- What an evaluation raises. -/
inductive Verdict where
  | nothing
  | trip
  | clear
deriving DecidableEq, Repr

/-- One evaluation of one watch (the table of R88). -/
def Watch.evaluate (w : Watch) (v : Output) : Watch × Verdict :=
  match w.state with
  | .off => (w, .nothing)
  | .clear =>
    if w.condition v then
      if w.run + 1 < w.hold then ({ w with run := w.run + 1 }, .nothing)
      else ({ w with state := .tripped, run := 0 }, .trip)
    else ({ w with run := 0 }, .nothing)
  | .tripped =>
    if w.condition v then ({ w with run := 0 }, .nothing)
    else if w.run + 1 < w.release then ({ w with run := w.run + 1 }, .nothing)
    else ({ w with state := .clear, run := 0 }, .clear)

/-- The watches evaluated so far, the notices they raised in order, and the watches that made a stop request,
in order. -/
structure Evaluation where
  state  : State
  raised : List Notice
  stops  : List WatchId

/-- Watch `w` evaluates output `v` of channel `c`, if it names the channel (R87, R89, R90). A watch in OFF is
left as it is by `Watch.evaluate`. -/
def Evaluation.step (c : ChanId) (index : OutIndex) (v : Output) (e : Evaluation) (w : WatchId) :
    Evaluation :=
  let k := e.state.watch w
  if k.channel = c then
    let r := k.evaluate v
    let s := e.state.modWatch w fun _ => r.1
    match r.2 with
    | .nothing => { e with state := s }
    | .trip =>
      ⟨s, e.raised ++ [.watchTrip w c index v], e.stops ++ (if k.action = .notifyStop then [w] else [])⟩
    | .clear => ⟨s, e.raised ++ [.watchClear w c index v], e.stops⟩
  else e

/-- An output evaluated by the watches in ascending number (R87). -/
def State.evaluate (s : State) (c : ChanId) (index : OutIndex) (v : Output) : Evaluation :=
  (List.finRange 8).foldl (Evaluation.step c index v) ⟨s, [], []⟩

/-- CHAN_START sets every watch on the channel that is not OFF to CLEAR with run count 0 (R91). -/
def Watch.restart (c : ChanId) (w : Watch) : Watch :=
  if w.channel = c ∧ w.state ≠ .off then { w with state := .clear, run := 0 } else w

/-! ## Commands (R85, R86, R92) -/

/-- A limit carried at 32 bits and judged against the 24-bit range (step 4 of R85). -/
def limitOf (x : BitVec 32) : Option Output :=
  if -(2 ^ 23) ≤ x.toInt ∧ x.toInt < 2 ^ 23 then some (x.truncate 24) else none

/-- The limits a kind asks to be in order (step 5 of R85). -/
def limitsOrdered (k : WatchKind) (low high : Output) : Bool :=
  match k with
  | .outside => low.sle high
  | .inside => low.sle high
  | .above => true
  | .below => true

/-- The watch number and the record that a WATCH_SET payload asks for, when it passes the six checks of R85;
each failure is the same BAD_ARG. -/
def watchOperands (p : List Byte) : Option (WatchId × Watch) := do
  let w ← indexOf 8 (byteAt p 0)
  let c ← indexOf 16 (byteAt p 1)
  let k ← WatchKind.ofByte (byteAt p 2)
  let a ← WatchAction.ofByte (byteAt p 3)
  let low ← limitOf (wordAt p 4)
  let high ← limitOf (wordAt p 8)
  if limitsOrdered k low high && byteAt p 12 != 0 && byteAt p 13 != 0 then
    some (w, ⟨.clear, c, k, low, high, (byteAt p 12).toNat, (byteAt p 13).toNat, a, 0⟩)
  else none

/-- WATCH_SET as the watch unit takes it (R85). -/
def watchSetOwner (p : List Byte) (s : State) : Answer :=
  match watchOperands p with
  | none => .refuse .watchSet .badArg s
  | some (w, r) => .done .ok (s.modWatch w fun _ => r)

/-- WATCH_SET. -/
def execWatchSet (tag : Byte) (p : List Byte) (s : State) : Host.Outcome State Fault Refusal :=
  .next (s.take .watchSet tag p (watchSetOwner p))

/-- WATCH_OFF as the watch unit takes it (R86). -/
def watchOffOwner (p : List Byte) (s : State) : Answer :=
  match indexOf 8 (byteAt p 0) with
  | none => .refuse .watchOff .badArg s
  | some w => .done .ok (s.modWatch w fun r => { r with state := .off, run := 0 })

/-- WATCH_OFF. -/
def execWatchOff (tag : Byte) (p : List Byte) (s : State) : Host.Outcome State Fault Refusal :=
  .next (s.take .watchOff tag p (watchOffOwner p))

/-- The body of a WATCH_QUERY reply (section 9.4); the limits are carried at 32 bits, signed. -/
def Watch.report (w : Watch) : List Byte :=
  [w.state.code, natByte w.channel.val, w.kind.code, w.action.code] ++ wordBytes (w.low.signExtend 32) ++
    wordBytes (w.high.signExtend 32) ++ [natByte w.hold, natByte w.release, natByte w.run]

/-- WATCH_QUERY as the watch unit takes it (R92): the clear flag has no effect. -/
def watchQueryOwner (p : List Byte) (s : State) : Answer :=
  match indexOf 8 (byteAt p 0) with
  | none => .refuse .watchQuery .badArg s
  | some w => ⟨s, .ok, (s.watch w).report, []⟩

/-- WATCH_QUERY. -/
def execWatchQuery (tag : Byte) (p : List Byte) (s : State) : Host.Outcome State Fault Refusal :=
  .next (s.take .watchQuery tag p (watchQueryOwner p))

end Sys2Proof.Machine
end

