-- ==== Sys2Proof/Machine/Channels.lean ====
section
/-! DEFINITION. The channel controller (01_filter_channels.md): the channel commands, and the claims that the
watch unit and the sum engine make on a channel. -/

namespace Sys2Proof.Machine

/-! ## Claims (R18, R21, R22) -/

/-- A swap-point claim (R18). -/
def State.swapPoint (s : State) (c : ChanId) : State :=
  match (s.chan c).staged with
  | none => s
  | some b =>
    (s.dropRef? (s.chan c).active).modChan c fun ch =>
      { ch with active := some b, staged := none, opSlot := ch.opSlot.finishOp .swap .ok }

/-- The watch stop requests of a channel that is stopped are ignored, those that wait among them: each finds the
channel STOPPING (R21, R90). -/
def State.ignoreRequests (s : State) (c : ChanId) : State :=
  { s with stopRequests := s.stopRequests.filter (· != c) }

/-- What a watch stop request does to its channel's record, and to the channel's other requests (R21, R90). The
close that follows is made by the completion that the request is taken in, or by `State.takeStopRequest`. -/
def State.stopRequest (s : State) (c : ChanId) : State :=
  match (s.chan c).state with
  | .running =>
    ((s.releaseStaged c).modChan c fun ch =>
      { ch with state := .stopping, stopCause := some .watch,
                opSlot := ch.opSlot.finishOp .swap .cancelled }).ignoreRequests c
  | .idle => s
  | .ready => s
  | .stopping => s
  | .faulted => s

/-- The channel is in a run: RUNNING or STOPPING. -/
def ChanState.inRun : ChanState → Bool
  | .running => true
  | .stopping => true
  | .idle => false
  | .ready => false
  | .faulted => false

/-- A run ended at once by an abort or a fault: the batches are discarded, a staged bank is released, a
pending operation ends with `status` and the stop cause is removed (R19, R22). -/
def State.endRun (s : State) (c : ChanId) (state : ChanState) (status : DoneStatus) : State :=
  ((s.discard c).releaseStaged c).modChan c fun ch =>
    { ch with state := state, stopCause := none, opSlot := ch.opSlot.finish status }

/-- A fault claim (R22). -/
def State.faultClaim (s : State) (c : ChanId) (cause : FaultCause) : Raising :=
  if (s.chan c).state.inRun then (s.endRun c .faulted .faulted, [.memoryFault c cause]) else (s, [])

/-! ## CHAN_CONFIG (R6, R7) -/

/-- A number that lies in a range. -/
def inRange (lo hi n : Nat) : Option Nat := if lo ≤ n ∧ n ≤ hi then some n else none

/-- The twelve configuration values of a CHAN_CONFIG payload, each in its range (section 9.3). -/
def configOperands (p : List Byte) : Option ChanConfig := do
  let lane ← indexOf 4 (byteAt p 1)
  let slot ← indexOf 8 (byteAt p 2)
  let decimation ← inRange 1 64 (byteAt p 3).toNat
  let shift ← inRange 0 23 (byteAt p 4).toNat
  let fraction ← boolOfByte (byteAt p 5)
  let policy ← RangePolicy.ofByte (byteAt p 6)
  let batchSize ← inRange 1 32 (byteAt p 7).toNat
  let window ← inRange 1 3 (byteAt p 8).toNat
  let autoAck ← boolOfByte (byteAt p 9)
  let cls ← indexOf 4 (byteAt p 10)
  let retryLimit ← inRange 0 7 (byteAt p 11).toNat
  let ackTimeout ← inRange 1 2000 (halfAt p 12).toNat
  some ⟨lane, slot, decimation, shift, fraction, policy, batchSize, window, autoAck, cls, ackTimeout,
        retryLimit⟩

/-- A configuration put in place: all twelve values, and the rotation move of a class change (R6, R7). -/
def State.configure (s : State) (c : ChanId) (g : ChanConfig) : State :=
  (s.modArb fun a => a.changeClass c (s.chan c).config.cls g.cls).modChan c fun ch =>
    { ch with config := g }

/-- CHAN_CONFIG as the channel controller takes it. -/
def chanConfigOwner (p : List Byte) (s : State) : Answer :=
  match indexOf 16 (byteAt p 0) with
  | none => .refuse .chanConfig .badArg s
  | some c =>
    match (s.chan c).state with
    | .idle | .ready =>
      match configOperands p with
      | none => .refuse .chanConfig .badArg s
      | some g => .done .ok (s.configure c g)
    | .running | .stopping | .faulted => .refuse .chanConfig .wrongState s

/-- CHAN_CONFIG. -/
def execChanConfig (tag : Byte) (p : List Byte) (s : State) : Host.Outcome State Fault Refusal :=
  .next (s.take .chanConfig tag p (chanConfigOwner p))

/-! ## CHAN_BIND (R8) -/

/-- The named bank becomes the active bank: the claim adds one, then subtracts one from the old (R8, R38). -/
def State.bind (s : State) (c : ChanId) (b : BankId) : State :=
  ((s.addRef b).dropRef? (s.chan c).active).modChan c fun ch =>
    { ch with active := some b, state := .ready }

/-- CHAN_BIND as the channel controller takes it. -/
def chanBindOwner (p : List Byte) (s : State) : Answer :=
  match indexOf 16 (byteAt p 0) with
  | none => .refuse .chanBind .badArg s
  | some c =>
    match (s.chan c).state with
    | .idle | .ready =>
      match indexOf 32 (byteAt p 1) with
      | none => .refuse .chanBind .badArg s
      | some b =>
        match s.judge b with
        | some refusal => .refuse .chanBind refusal s
        | none => .done .ok (s.bind c b)
    | .running | .stopping | .faulted => .refuse .chanBind .wrongState s

/-- CHAN_BIND. -/
def execChanBind (tag : Byte) (p : List Byte) (s : State) : Host.Outcome State Fault Refusal :=
  .next (s.take .chanBind tag p (chanBindOwner p))

/-! ## CHAN_START (R9, R91) -/

/-- The lane is enabled and carries the channel's slot (R9). -/
def State.laneReady (s : State) (c : ChanId) : Bool :=
  let g := (s.chan c).config
  (s.lane g.lane).state != .off && g.slot.val < (s.lane g.lane).slotCount

/-- A run begun (R9): the session changes, the run state and the delivery counters are zeroed, and the
channel's watches are set to CLEAR. -/
def State.start (s : State) (c : ChanId) : State :=
  let s := s.modChan c fun ch =>
    { ch with session := ch.session + 1, phase := 0, fill := 0, outIndex := 0, flags := .none,
              state := .running }
  let s := s.modDeliv c fun d => { d with seqCounter := 0, pendingLost := 0 }
  { s with watches := s.watches.map (Watch.restart c) }

/-- CHAN_START as the channel controller takes it. -/
def chanStartOwner (p : List Byte) (s : State) : Answer :=
  match indexOf 16 (byteAt p 0) with
  | none => .refuse .chanStart .badArg s
  | some c =>
    match (s.chan c).state with
    | .ready => if s.laneReady c then .done .ok (s.start c) else .refuse .chanStart .wrongState s
    | .idle | .running | .stopping | .faulted => .refuse .chanStart .wrongState s

/-- CHAN_START. -/
def execChanStart (tag : Byte) (p : List Byte) (s : State) : Host.Outcome State Fault Refusal :=
  .next (s.take .chanStart tag p (chanStartOwner p))

/-! ## CHAN_STOP (R13, R14) -/

/-- The close of a stop waits for the completion of the dispatch in flight: the channel is in its snapshot
(R14), be its entry struck or not. -/
def State.closeDeferred (s : State) (c : ChanId) : Bool :=
  match s.engine.dispatch with
  | none => false
  | some d => d.snapshot.any fun e => e.channel == c

/-- The close of a stop just taken: at once, or left to the completion of the dispatch in flight (R14). -/
def State.closeAtStop (s : State) (c : ChanId) : Raising :=
  if s.closeDeferred c then (s, []) else s.closeBatch c

/-- A stop accepted (R13). -/
def State.stopChannel (s : State) (c : ChanId) (tag : Byte) : Raising :=
  ((s.modChan c fun ch =>
    { ch with state := .stopping, stopCause := some .command,
              opSlot := .pending .stop tag }).ignoreRequests c).closeAtStop c

/-- CHAN_STOP as the channel controller takes it. -/
def chanStopOwner (tag : Byte) (p : List Byte) (s : State) : Answer :=
  match indexOf 16 (byteAt p 0) with
  | none => .refuse .chanStop .badArg s
  | some c =>
    match (s.chan c).state with
    | .running =>
      if (s.chan c).opSlot ≠ .none then .refuse .chanStop .busy s
      else
        let r := s.stopChannel c tag
        ⟨r.1, .accepted, [], r.2⟩
    | .idle | .ready | .stopping | .faulted => .refuse .chanStop .wrongState s

/-- CHAN_STOP. -/
def execChanStop (tag : Byte) (p : List Byte) (s : State) : Host.Outcome State Fault Refusal :=
  .next (s.take .chanStop tag p (chanStopOwner tag p))

/-! ## Watch stop requests that wait (R21) -/

/-- The oldest watch stop request that waits is taken: a RUNNING channel is stopped and its batch closed as for
any stop, and in every other state the request is ignored (R21; log entry 12). -/
def State.takeStopRequest (s : State) : Raising :=
  match s.stopRequests with
  | [] => (s, [])
  | c :: rest =>
    let t := { s with stopRequests := rest }
    if (s.chan c).state = .running then (t.stopRequest c).closeAtStop c else (t, [])

/-! ## CHAN_ABORT (R19, R68) -/

/-- The channel's entry in the dispatch in flight is struck (R68). -/
def State.strike (s : State) (c : ChanId) : State :=
  s.setDispatch (s.engine.dispatch.map fun d =>
    { d with snapshot := d.snapshot.map fun e => if e.channel = c then { e with struck := true } else e })

/-- CHAN_ABORT as the channel controller takes it. -/
def chanAbortOwner (p : List Byte) (s : State) : Answer :=
  match indexOf 16 (byteAt p 0) with
  | none => .refuse .chanAbort .badArg s
  | some c =>
    if (s.chan c).state.inRun then .done .ok ((s.endRun c .ready .aborted).strike c)
    else .refuse .chanAbort .wrongState s

/-- CHAN_ABORT. -/
def execChanAbort (tag : Byte) (p : List Byte) (s : State) : Host.Outcome State Fault Refusal :=
  .next (s.take .chanAbort tag p (chanAbortOwner p))

/-! ## CHAN_CLEAR (R20) -/

/-- The channel returned to IDLE with its defaults (R20). -/
def State.clearChannel (s : State) (c : ChanId) : State :=
  ((s.dropRef? (s.chan c).active).configure c .default).modChan c fun ch =>
    { ch with active := none, phase := 0, fill := 0, outIndex := 0, flags := .none, counters := .zero,
              state := .idle }

/-- CHAN_CLEAR as the channel controller takes it. -/
def chanClearOwner (p : List Byte) (s : State) : Answer :=
  match indexOf 16 (byteAt p 0) with
  | none => .refuse .chanClear .badArg s
  | some c =>
    match (s.chan c).state with
    | .idle | .ready | .faulted => .done .ok (s.clearChannel c)
    | .running | .stopping => .refuse .chanClear .wrongState s

/-- CHAN_CLEAR. -/
def execChanClear (tag : Byte) (p : List Byte) (s : State) : Host.Outcome State Fault Refusal :=
  .next (s.take .chanClear tag p (chanClearOwner p))

/-! ## CHAN_SWAP (R16, R17) -/

/-- A swap carried out at once in READY (R16). -/
def State.swapNow (s : State) (c : ChanId) (b : BankId) (tag : Byte) : State :=
  ((s.addRef b).dropRef? (s.chan c).active).modChan c fun ch =>
    { ch with active := some b, opSlot := .unreported .swap tag .ok }

/-- A swap staged in RUNNING (R17). -/
def State.stageSwap (s : State) (c : ChanId) (b : BankId) (tag : Byte) : State :=
  (s.addRef b).modChan c fun ch => { ch with staged := some b, opSlot := .pending .swap tag }

/-- CHAN_SWAP as the channel controller takes it. -/
def chanSwapOwner (tag : Byte) (p : List Byte) (s : State) : Answer :=
  match indexOf 16 (byteAt p 0) with
  | none => .refuse .chanSwap .badArg s
  | some c =>
    match (s.chan c).state with
    | .ready | .running =>
      if (s.chan c).opSlot ≠ .none then .refuse .chanSwap .busy s
      else
        match indexOf 32 (byteAt p 1) with
        | none => .refuse .chanSwap .badArg s
        | some b =>
          match s.judge b with
          | some refusal => .refuse .chanSwap refusal s
          | none =>
            .done .accepted
              (if (s.chan c).state = .ready then s.swapNow c b tag else s.stageSwap c b tag)
    | .idle | .stopping | .faulted => .refuse .chanSwap .wrongState s

/-- CHAN_SWAP. -/
def execChanSwap (tag : Byte) (p : List Byte) (s : State) : Host.Outcome State Fault Refusal :=
  .next (s.take .chanSwap tag p (chanSwapOwner tag p))

/-! ## CHAN_QUERY (R23) -/

/-- The configuration values in the order of CHAN_CONFIG bytes 1 to 13 (section 9.4). -/
def ChanConfig.report (g : ChanConfig) : List Byte :=
  [natByte g.lane.val, natByte g.slot.val, natByte g.decimation, natByte g.shift, boolByte g.fraction,
   g.policy.code, natByte g.batchSize, natByte g.window, boolByte g.autoAck, natByte g.cls.val,
   natByte g.retryLimit] ++ natBytes g.ackTimeout

/-- The operation slot: its value, operation, tag and status, the unused ones 0 (R153). -/
def OpSlot.report : OpSlot → List Byte
  | .none => [0, 0, 0, 0]
  | .pending op tag => [1, op.code, tag, 0]
  | .unreported op tag status => [2, op.code, tag, status.code]

/-- The six counters (section 9.4). -/
def ChanCounters.report (k : ChanCounters) : List Byte :=
  halfBytes k.guardEvents ++ halfBytes k.clipEvents ++ halfBytes k.gapEvents ++ halfBytes k.outputsLost ++
    halfBytes k.batchesDropped ++ halfBytes k.retransmissions

/-- What the delivery unit reports: the slots in each state, the next sequence number and the pending lost
count (R23). -/
def ChanDelivery.report (d : ChanDelivery) : List Byte :=
  [natByte (d.count .free), natByte (d.count .filling), natByte (d.count .ready),
   natByte (d.count .inflight), d.seqCounter] ++ halfBytes d.pendingLost

/-- The body of a CHAN_QUERY reply (section 9.4). -/
def chanReport (ch : Channel) (d : ChanDelivery) : List Byte :=
  [ch.state.code, stopCauseCode ch.stopCause] ++ ch.config.report ++
    [bankByte ch.active, bankByte ch.staged, ch.session, natByte ch.phase] ++ natBytes ch.fill ++
    wordBytes ch.outIndex ++ [ch.flags.byte] ++ ch.opSlot.report ++ d.report ++ ch.counters.report

/-- CHAN_QUERY as the channel controller takes it. -/
def chanQueryOwner (p : List Byte) (s : State) : Answer :=
  match indexOf 16 (byteAt p 0) with
  | none => .refuse .chanQuery .badArg s
  | some c =>
    ⟨if clearFlag p then s.modChan c fun ch => { ch with counters := .zero } else s,
     .ok, chanReport (s.chan c) (s.deliv c), []⟩

/-- CHAN_QUERY. -/
def execChanQuery (tag : Byte) (p : List Byte) (s : State) : Host.Outcome State Fault Refusal :=
  .next (s.take .chanQuery tag p (chanQueryOwner p))

/-! ## CHAN_ROTATE (R24) -/

/-- CHAN_ROTATE as the channel controller takes it. -/
def chanRotateOwner (p : List Byte) (s : State) : Answer :=
  match indexOf 4 (byteAt p 0), indexOf 16 (byteAt p 1) with
  | some k, some c =>
    if (s.chan c).config.cls = k then .done .ok (s.modArb fun a => a.toHead c k)
    else .refuse .chanRotate .badArg s
  | _, _ => .refuse .chanRotate .badArg s

/-- CHAN_ROTATE. -/
def execChanRotate (tag : Byte) (p : List Byte) (s : State) : Host.Outcome State Fault Refusal :=
  .next (s.take .chanRotate tag p (chanRotateOwner p))

end Sys2Proof.Machine
end

