-- ==== Sys2Proof/Machine/Engine.lean ====
section
/-! DEFINITION. The sum engine (04_the_sum_engine.md): choosing a sample, the dispatch start, the arithmetic,
the parity checks, and the dispatch completion. -/

namespace Sys2Proof.Machine

/-! ## Dispatch start (R64 to R66) -/

/-- The lane to serve: the first after the last-served one whose FIFO holds an entry (R64). -/
def State.nextLane (s : State) : Option LaneId :=
  ((List.range 4).map fun i => s.engine.lastServed + Fin.ofNat 4 (i + 1)).find? fun l =>
    !(s.lane l).fifo.isEmpty

/-- The head leaves the FIFO; one that it leaves empty ends the overrun episode (R55, R56). -/
def Lane.popHead (r : Lane) : Lane :=
  { r with fifo := r.fifo.tail, latch := r.latch && !r.fifo.tail.isEmpty }

/-- The snapshot entry of a channel: output due when the phase equals D - 1, and then the active bank is
noted, and is the fault cause if it is DAMAGED (R65, R66). -/
def State.snapEntry (s : State) (c : ChanId) : SnapEntry :=
  let ch := s.chan c
  let due := ch.phase + 1 == ch.config.decimation
  let bank := if due then ch.active else none
  { channel := c
    session := ch.session
    due := due
    bank := bank
    fault := bank.bind fun b => if (s.bank b).state = .damaged then some (.bank b) else none
    struck := false
    fillAtStart := ch.fill }

/-- The channels a sample of this lane and slot is for (R65). -/
def State.snapshot (s : State) (l : LaneId) (p : SlotId) : List SnapEntry :=
  ((List.finRange 16).filter fun c =>
    (s.chan c).state == .running && (s.chan c).config.lane == l && (s.chan c).config.slot == p).map
    s.snapEntry

/-- The hold of every bank noted in a snapshot set or cleared (R39). -/
def State.setHolds (s : State) (es : List SnapEntry) (hold : Bool) : State :=
  (es.filterMap (·.bank)).foldl (fun s b => s.modBank b fun k => { k with hold := hold }) s

/-- A dispatch started on lane `l` with the entry `x` at the head of its FIFO (R65, R66). -/
def State.startDispatch (s : State) (l : LaneId) (x : FifoEntry) : State :=
  let es := s.snapshot l x.slot
  let s := (s.modLane l Lane.popHead).setHolds es true
  { s with engine := { s.engine with lastServed := l, dispatch := some ⟨l, x, es, []⟩ } }

/-- DISPATCH_START: the engine is idle and some FIFO holds an entry (R64). -/
def execDispatchStart (s : State) : Host.Outcome State Fault Refusal :=
  .next <|
    match s.engine.dispatch, s.nextLane with
    | none, some l =>
      match (s.lane l).fifo with
      | x :: _ => s.startDispatch l x
      | [] => s
    | _, _ => s

/-! ## The arithmetic (R72 to R75) -/

/-- 2^37, the bound of the 38-bit accumulator. -/
def accBound : Int := 2 ^ 37

/-- 2^23, the bound of an output. -/
def outBound : Int := 2 ^ 23

/-- The value lies in the range of a two's complement register whose bound is `b`. -/
def within (b : Int) (x : Int) : Bool := -b ≤ x && x < b

/-- One term added to the accumulator; the second component says whether any addition left the range
(R74). -/
def addTerm (policy : RangePolicy) (acc : Int × Bool) (term : Int) : Int × Bool :=
  let sum := acc.1 + term
  if within accBound sum then (sum, acc.2)
  else
    match policy with
    | .sat => (if 0 < sum then accBound - 1 else -accBound, true)
    | .wrap => (if 0 < sum then sum - 2 * accBound else sum + 2 * accBound, true)

/-- One product, doubled in fraction mode (R73). -/
def term (fraction : Bool) (c x : Sample) : Int :=
  if fraction then 2 * (c.toInt * x.toInt) else c.toInt * x.toInt

/-- What stopped a computation (R77). -/
inductive ReadFailure where
  | coefficient
  | history
deriving DecidableEq, Repr

/-- The accumulation of `n` terms from term `k` on; at each the coefficient is read and checked first, then
the history entry, and the first failure stops it (R73, R77). `x 0` is the dispatch's sample, whose mark is
good. -/
def accumulate (g : ChanConfig) (c x : Nat → StoredWord) :
    Nat → Nat → Int × Bool → Except ReadFailure (Int × Bool)
  | 0, _, acc => .ok acc
  | n + 1, k, acc =>
    if !(c k).markGood then .error .coefficient
    else if !(x k).markGood then .error .history
    else accumulate g c x n (k + 1) (addTerm g.policy acc (term g.fraction (c k).value (x k).value))

/-- The accumulator scaled by the output shift, exact halves rounded upward (R75). -/
def scale (shift : Nat) (acc : Int) : Int :=
  if shift = 0 then acc else (acc + 2 ^ (shift - 1)) / 2 ^ shift

/-- The scaled value brought into 24 bits, and whether it was clipped (R75). -/
def clip (policy : RangePolicy) (x : Int) : Output × Bool :=
  if within outBound x then (BitVec.ofInt 24 x, false)
  else
    match policy with
    | .sat => (BitVec.ofInt 24 (if 0 < x then outBound - 1 else -outBound), true)
    | .wrap => (BitVec.ofInt 24 x, true)

/-- The fill count after an append (R72). -/
def fillAfter (f : Nat) : Nat := min Config.ringSize (f + 1)

/-- x[n-k]: the dispatch's sample for k = 0, else the entry k - 1 places older than the newest (R72). -/
def State.sampleAt (s : State) (d : Dispatch) (c : ChanId) (k : Nat) : StoredWord :=
  if k = 0 then ⟨d.sample.value, true⟩ else (s.ring c).getD (k - 1) Config.unwritten

/-- How many terms an entry's output has: the smaller of T and f' (R73). -/
def SnapEntry.terms (e : SnapEntry) (b : Bank) : Nat := min b.taps (fillAfter e.fillAtStart)

/-- The accumulation of the first `n` terms of an entry's output. -/
def State.accumulateFor (s : State) (d : Dispatch) (e : SnapEntry) (b : Bank) (n : Nat) :
    Except ReadFailure (Int × Bool) :=
  accumulate (s.chan e.channel).config (s.coeff b) (s.sampleAt d e.channel) n 0 (0, false)

/-- The bank whose coefficients the dispatch reads for an entry: the one noted, if an output is due and no
fault cause is set (R67). -/
def SnapEntry.reads (e : SnapEntry) : Option BankId := if e.due && e.fault.isNone then e.bank else none

/-- The outcome of an entry's computation. -/
inductive EntryWork where
  | nothing
  | failed (cause : FaultCause)
  | computed (r : Result)
deriving DecidableEq, Repr

/-- The computation of an entry's output (R67, R73 to R77). -/
def State.workEntry (s : State) (d : Dispatch) (e : SnapEntry) : EntryWork :=
  match e.reads with
  | none => .nothing
  | some b =>
    match s.accumulateFor d e (s.bank b) (e.terms (s.bank b)) with
    | .error .coefficient => .failed (.bank b)
    | .error .history => .failed .history
    | .ok (acc, guard) =>
      let g := (s.chan e.channel).config
      let y := clip g.policy (scale g.shift acc)
      .computed ⟨e.channel, y.1, guard, y.2⟩

/-! ## Damage (R40, R41, R77, R78) -/

/-- A SEALED bank becomes DAMAGED; one already DAMAGED stays so (R40). -/
def State.damageBank (s : State) (b : BankId) : State :=
  s.modBank b fun k => if k.state = .sealed then { k with state := .damaged } else k

/-- A word whose parity check has failed: its mark does not match. -/
def spoil (w : StoredWord) : StoredWord := { w with markGood := false }

/-- The dispatch reads coefficient `k` for the entry: it is one of the terms, and no read before it fails
(R73, R77). -/
def State.readsCoeff (s : State) (d : Dispatch) (e : SnapEntry) (b : Bank) (k : Nat) : Bool :=
  k < e.terms b && (match s.accumulateFor d e b k with | .ok _ => true | .error _ => false)

/-- Coefficient `k` of bank `b` found bad for channel `c` during the dispatch (R40, R77): its mark fails, the
entry takes the bank as its fault cause, and the bank is damaged. -/
def State.markDamage (s : State) (d : Dispatch) (c : ChanId) (b : BankId) (k : Nat) : State :=
  let s := (s.setCoeff (s.bank b) k (spoil (s.coeff (s.bank b) k))).damageBank b
  s.setDispatch (some { d with snapshot := d.snapshot.map fun e =>
    if e.channel = c then { e with fault := some (.bank b) } else e })

/-- The dispatch in flight and its entry for channel `c`. -/
def State.entryOf (s : State) (c : ChanId) : Option (Dispatch × SnapEntry) :=
  s.engine.dispatch.bind fun d => (d.snapshot.find? fun e => e.channel == c).map fun e => (d, e)

/-- DAMAGE_MARKING (R40). A word that the dispatch in flight does not read is not found bad (log entry 1). -/
def execDamageMarking (c : ChanId) (k : Fin 256) (s : State) : Host.Outcome State Fault Refusal :=
  .next <|
    match s.entryOf c with
    | none => s
    | some (d, e) =>
      match e.reads with
      | none => s
      | some b => if s.readsCoeff d e (s.bank b) k.val then s.markDamage d c b k.val else s

/-- A history entry is one of those that the dispatch reads for an entry of its snapshot. -/
def State.readsHistory (s : State) (d : Dispatch) (c : ChanId) (k : Nat) : Bool :=
  d.snapshot.any fun e =>
    e.channel == c &&
      match e.reads with
      | none => false
      | some b => 0 < k && k < e.terms (s.bank b)

/-- History reads found to fail their parity check (R77, R79; log entry 8). -/
def State.upsetHistory (s : State) (d : Dispatch) (bad : List (ChanId × Fin 256)) : State :=
  bad.foldl (fun s p =>
    if s.readsHistory d p.1 p.2.val then s.modRing p.1 fun r => r.modify (p.2.val - 1) spoil
    else s) s

/-- The dispatch record with the computations done: fault causes and results (R63, R67). -/
def State.workDispatch (s : State) (d : Dispatch) : Dispatch :=
  { d with
    snapshot := d.snapshot.map fun e =>
      match s.workEntry d e with
      | .failed cause => { e with fault := some cause }
      | .nothing => e
      | .computed _ => e
    results := d.snapshot.filterMap fun e =>
      match s.workEntry d e with
      | .computed r => some r
      | .nothing => none
      | .failed _ => none }

/-- The banks in which the computations found a bad coefficient are damaged (R40; log entry 10). -/
def State.damageFound (s : State) (d : Dispatch) : State :=
  d.snapshot.foldl (fun t e =>
    match s.workEntry d e with
    | .failed (.bank b) => t.damageBank b
    | .failed .history => t
    | .nothing => t
    | .computed _ => t) s

/-! ## Dispatch completion (R68 to R71, R80) -/

/-- The completion guard (R68). -/
def State.passes (s : State) (e : SnapEntry) : Bool :=
  !e.struck && (s.chan e.channel).state.inRun && (s.chan e.channel).session == e.session

/-- Steps 1 to 3 of R69: the sample is appended, its gap mark noted, and the phase advances. -/
def State.takeSample (s : State) (c : ChanId) (x : FifoEntry) : State :=
  (s.modRing c fun r => (⟨x.value, true⟩ :: r).take Config.ringSize).modChan c fun ch =>
    { ch with
      fill := fillAfter ch.fill
      flags := { ch.flags with gap := ch.flags.gap || x.gapMark }
      counters := { ch.counters with
        gapEvents := if x.gapMark then inc16 ch.counters.gapEvents else ch.counters.gapEvents }
      phase := if ch.phase + 1 = ch.config.decimation then 0 else ch.phase + 1 }

/-- Step 1 of R70: the channel's flags and counters set from the result; `taps` is the tap count of the bank
noted. -/
def State.setFlags (s : State) (c : ChanId) (r : Result) (taps : Nat) : State :=
  s.modChan c fun ch =>
    { ch with
      flags := { ch.flags with
        settling := ch.flags.settling || ch.fill < taps
        guard := ch.flags.guard || r.guard
        clip := ch.flags.clip || r.clip }
      counters := { ch.counters with
        guardEvents := if r.guard then inc16 ch.counters.guardEvents else ch.counters.guardEvents
        clipEvents := if r.clip then inc16 ch.counters.clipEvents else ch.counters.clipEvents } }

/-- Step 5 of R70 with the stop requests of the same output that are taken before and after it (R18, R90). A
second request finds the channel STOPPING and changes nothing. -/
def State.swapAndStop (s : State) (c : ChanId) (before after : Bool) : State :=
  let s := (if before then s.stopRequest c else s).swapPoint c
  if after then s.stopRequest c else s

/-- The watches of `ws` whose stop requests the completion takes, before the swap point or after it (R18,
R21). -/
def requestsTaken (choice : CompletionChoice) (ws : List WatchId) (before : Bool) : List WatchId :=
  ws.filter fun w => !choice.stopLate.contains w && choice.stopFirst.contains w == before

/-- The stop requests of the watches `ws` on channel `c` left waiting by the completion (R21). A request is
ignored if the channel is STOPPING as it is made, or if it is not the channel's first, for it then finds the
channel STOPPING (R90); so at most one is kept. -/
def State.leaveRequests (s : State) (c : ChanId) (ws : List WatchId) : State :=
  { s with
    stopRequests :=
      if ws ≠ [] ∧ (s.chan c).state = .running ∧ c ∉ s.stopRequests then s.stopRequests ++ [c]
      else s.stopRequests }

/-- An output handed on (R70). -/
def State.handOn (s : State) (c : ChanId) (r : Result) (taps : Nat) (choice : CompletionChoice) : Raising :=
  let index := (s.chan c).outIndex
  let a := (s.setFlags c r taps).append c index r.value
  let w := a.1.evaluate c index r.value
  let s := w.state.modChan c fun ch => { ch with outIndex := ch.outIndex + 1 }
  let s := s.swapAndStop c (!(requestsTaken choice w.stops true).isEmpty)
    (!(requestsTaken choice w.stops false).isEmpty)
  (s.leaveRequests c (w.stops.filter choice.stopLate.contains), a.2 ++ w.raised)

/-- The tap count of the bank an entry noted. -/
def State.notedTaps (s : State) (e : SnapEntry) : Nat :=
  match e.bank with
  | some b => (s.bank b).taps
  | none => 0

/-- The close of a channel that is STOPPING at its dispatch's completion (R14). -/
def State.closeIfStopping (s : State) (c : ChanId) : Raising :=
  if (s.chan c).state = .stopping then s.closeBatch c else (s, [])

/-- What a completion does for an entry that passes the guard and has no fault cause: steps 1 to 3 of R69, the
output handed on, and the close claim (R71). -/
def State.settlePassing (s : State) (choice : CompletionChoice) (d : Dispatch) (e : SnapEntry) : Raising :=
  let c := e.channel
  let ends := (s.chan c).phase + 1 = (s.chan c).config.decimation
  let t := s.takeSample c d.sample
  let r : Raising :=
    if ends then
      match d.results.find? fun r => r.channel == c with
      | some r => t.handOn c r (s.notedTaps e) choice
      | none => (t, [])
    else (t, [])
  r.andThen fun s => s.closeIfStopping c

/-- An entry that passes the guard settled: a fault claim, or what R69 writes (R69, R80). -/
def State.settleEntry (s : State) (choice : CompletionChoice) (d : Dispatch) (e : SnapEntry) : Raising :=
  match e.fault with
  | some cause => s.faultClaim e.channel cause
  | none => s.settlePassing choice d e

/-- An entry at the completion. One that fails the guard writes nothing and makes no claim (R68, R71). There is
then a close left only where a stop was taken after the entry had been struck and the channel started again;
R14 has the delivery unit make it at this completion (log entry 13). -/
def State.completeEntry (s : State) (choice : CompletionChoice) (d : Dispatch) (e : SnapEntry) : Raising :=
  if s.passes e then s.settleEntry choice d e else s.closeIfStopping e.channel

/-- The notices of a completion, listed by the channel they were raised for. -/
abbrev NoticeLog := List (ChanId × List Notice)

/-- The entries settled one after another; the notices of each channel are kept apart. -/
def State.settleAll (choice : CompletionChoice) (d : Dispatch) : List SnapEntry → State → State × NoticeLog
  | [], s => (s, [])
  | e :: es, s =>
    let r := s.completeEntry choice d e
    let t := State.settleAll choice d es r.1
    (t.1, (e.channel, r.2) :: t.2)

/-- The next notice of a channel taken out of the log. -/
def takeNotice (c : ChanId) : NoticeLog → Option (Notice × NoticeLog)
  | [] => none
  | (k, ns) :: log =>
    if k = c then
      match ns with
      | n :: rest => some (n, (k, rest) :: log)
      | [] => (takeNotice c log).map fun r => (r.1, (k, []) :: r.2)
    else (takeNotice c log).map fun r => (r.1, (k, ns) :: r.2)

/-- The notices in the order chosen: at each place the next notice of the channel named, and then what is
left, channel by channel (R69; log entry 11). -/
def mergeNotices : List ChanId → NoticeLog → List Notice
  | [], log => log.flatMap (·.2)
  | c :: order, log =>
    match takeNotice c log with
    | some (n, rest) => n :: mergeNotices order rest
    | none => mergeNotices order log

/-- The completion of dispatch `d` (R69). -/
def State.complete (s : State) (d : Dispatch) (choice : CompletionChoice) : State :=
  let s := s.upsetHistory d choice.badHistory
  let d' := s.workDispatch d
  let r := State.settleAll choice d' d'.snapshot (s.damageFound d)
  ((r.1.setHolds d.snapshot false).setDispatch none).raiseAll (mergeNotices choice.noticeOrder r.2)

/-- DISPATCH_COMPLETION (R68 to R71). With no dispatch in flight nothing completes (log entry 1). -/
def execDispatchCompletion (choice : CompletionChoice) (s : State) : Host.Outcome State Fault Refusal :=
  .next <|
    match s.engine.dispatch with
    | none => s
    | some d => s.complete d choice

end Sys2Proof.Machine
end

