-- ==== Sys2Proof/Machine/Lanes.lean ====
section
/-! DEFINITION. The lane receivers (03_sample_lanes.md): the lock machine, admission, overrun and gap marking,
LANE_SET and LANE_QUERY. -/

namespace Sys2Proof.Machine

/-! ## Admission (R54 to R57) -/

/-- Some channel bound to the lane and slot is RUNNING (R54). -/
def State.needed (s : State) (l : LaneId) (p : SlotId) : Bool :=
  (List.finRange 16).any fun c =>
    (s.chan c).state == .running && (s.chan c).config.lane == l && (s.chan c).config.slot == p

/-- An admitted word: it enters the FIFO with its slot's gap mark, or is dropped as an overrun. The notice is
the one LANE_OVERRUN of an episode (R55 to R57). -/
def Lane.takeIn (r : Lane) (l : LaneId) (p : SlotId) (w : Sample) : Lane × List Notice :=
  if r.fifo.length < Config.fifoCapacity then
    ({ r with fifo := r.fifo ++ [⟨p, w, r.gapPending.contains p⟩],
              gapPending := r.gapPending.filter (· != p) }, [])
  else
    ({ r with overruns := inc16 r.overruns, gapPending := insertAsc p r.gapPending, latch := true },
     if r.latch then [] else [.laneOverrun l])

/-- The admission decision for a word of slot `p`: a word that no running channel needs is discarded (R54). -/
def Lane.offer (r : Lane) (needed : SlotId → Bool) (l : LaneId) (p : SlotId) (w : Sample) :
    Lane × List Notice :=
  if needed p then r.takeIn l p w else (r, [])

/-! ## The lock machine (R49 to R53) -/

/-- The slots 0 to M-1. -/
def Lane.allSlots (r : Lane) : List SlotId := (List.finRange 8).filter fun p => p.val < r.slotCount

/-- The lane enters HUNT with position 0; the next bit is the first sampled in HUNT (R46). -/
def Lane.toHunt (r : Lane) : Lane :=
  { r with state := .hunt, position := 0, partialWord := .empty }

/-- The marker word becomes the candidate: CHECK with position 1. -/
def Lane.toCheck (r : Lane) : Lane :=
  { r with state := .check, position := 1, partialWord := .empty }

/-- A misframe (R53). -/
def Lane.misframe (r : Lane) (l : LaneId) (marker : Bool) : Lane × List Notice :=
  let r := { r with misframes := inc16 r.misframes,
                    gapPending := r.allSlots.foldl (fun g p => insertAsc p g) r.gapPending }
  (if marker then r.toCheck else r.toHunt,
   [.laneLost l (if marker then .earlyMarker else .missingMarker)])

/-- The slot that a position numbers; a locked lane's position is below M, so below 8 (R52). -/
def slotOf (p : Nat) : SlotId := Fin.ofNat 8 p

/-- A word handled by the lock machine (the table of section 3.3). -/
def Lane.lock (r : Lane) (needed : SlotId → Bool) (l : LaneId) (w : Sample) (marker : Bool) :
    Lane × List Notice :=
  match r.state with
  | .off => (r, [])
  | .hunt => (if marker then r.toCheck else { r with position := 0 }, [])
  | .check =>
    if r.position < r.slotCount then
      (if marker then r.toCheck else { r with position := r.position + 1 }, [])
    else if marker then
      let a := ({ r with state := .locked, position := 1 % r.slotCount }).offer needed l 0 w
      (a.1, .laneLocked l :: a.2)
    else (r.toHunt, [])
  | .locked =>
    if marker = decide (r.position = 0) then
      { r with position := (r.position + 1) % r.slotCount }.offer needed l (slotOf r.position) w
    else r.misframe l marker

/-- The word in assembly has arrived: no bits are gathered (R46). -/
def PartialWord.taken (w : PartialWord) : PartialWord := { w with bits := [], marker := false }

/-- A word that arrives on a lane that is not OFF is counted before the lock machine acts on it (R48), and the
bits it was gathered from are gone (R46). -/
def Lane.arrive (r : Lane) (needed : SlotId → Bool) (l : LaneId) (w : Sample) (marker : Bool) :
    Lane × List Notice :=
  match r.state with
  | .off => (r, [])
  | .hunt | .check | .locked =>
    { r with received := inc16 r.received, partialWord := r.partialWord.taken }.lock
      needed l w marker

/-- WORD_ARRIVAL (R46 to R58). A lane in OFF takes no arrivals (R48). -/
def execWordArrival (l : LaneId) (w : Sample) (marker : Bool) (s : State) :
    Host.Outcome State Fault Refusal :=
  .next <|
    let a := (s.lane l).arrive (s.needed l) l w marker
    (s.modLane l fun _ => a.1).raiseAll a.2

/-! ## Host commands (R59, R60) -/

/-- Some channel bound to the lane is RUNNING or STOPPING (R59). -/
def State.laneInUse (s : State) (l : LaneId) : Bool :=
  (List.finRange 16).any fun c =>
    ((s.chan c).state == .running || (s.chan c).state == .stopping) && (s.chan c).config.lane == l

/-- The lane after an accepted LANE_SET (R59): the counters are kept. -/
def Lane.configure (r : Lane) (enable : Bool) (m : Nat) : Lane :=
  { r with
    slotCount := m, fifo := [], gapPending := [], latch := false, partialWord := .empty,
    state := if enable then .hunt else .off, position := 0 }

/-- LANE_SET as the lane receiver takes it (R59). -/
def laneSetOwner (p : List Byte) (s : State) : Answer :=
  match indexOf 4 (byteAt p 0) with
  | none => .refuse .laneSet .badArg s
  | some l =>
    if s.laneInUse l then .refuse .laneSet .wrongState s
    else
      match boolOfByte (byteAt p 1) with
      | none => .refuse .laneSet .badArg s
      | some enable =>
        let m := (byteAt p 2).toNat
        if 1 ≤ m ∧ m ≤ 8 then .done .ok (s.modLane l fun r => r.configure enable m)
        else .refuse .laneSet .badArg s

/-- LANE_SET. -/
def execLaneSet (tag : Byte) (p : List Byte) (s : State) : Host.Outcome State Fault Refusal :=
  .next (s.take .laneSet tag p (laneSetOwner p))

/-- The gap-pending set as one byte in which bit s is 1 when slot s is in the set (section 9.4). -/
def slotsByte (l : List SlotId) : Byte := bitsToByte ((List.finRange 8).map l.contains)

/-- The body of a LANE_QUERY reply (section 9.4). -/
def Lane.report (r : Lane) : List Byte :=
  [r.state.code, natByte r.position, natByte r.slotCount, natByte r.fifo.length, slotsByte r.gapPending,
   boolByte r.latch] ++ halfBytes r.received ++ halfBytes r.misframes ++ halfBytes r.overruns

/-- The three counters cleared (R60). -/
def Lane.clearCounters (r : Lane) : Lane := { r with received := 0, misframes := 0, overruns := 0 }

/-- LANE_QUERY as the lane receiver takes it (R60). -/
def laneQueryOwner (p : List Byte) (s : State) : Answer :=
  match indexOf 4 (byteAt p 0) with
  | none => .refuse .laneQuery .badArg s
  | some l =>
    ⟨if clearFlag p then s.modLane l Lane.clearCounters else s, .ok, (s.lane l).report, []⟩

/-- LANE_QUERY. -/
def execLaneQuery (tag : Byte) (p : List Byte) (s : State) : Host.Outcome State Fault Refusal :=
  .next (s.take .laneQuery tag p (laneQueryOwner p))

end Sys2Proof.Machine
end

