-- ==== Sys2Proof/Machine/Receive.lean ====
section
/-! DEFINITION. The receiving half of the host link (08_the_host_link.md, sections 8.1 to 8.3 and 8.6): good
bytes and framing errors, frame assembly, the gap timer, the CRC check, routing, and the level of HRX. -/

namespace Sys2Proof.Machine

/-! ## Frame assembly (R129 to R133) -/

/-- The gap timer started or restarted at the gap timeout in force (R130). -/
def Link.startGap (k : Link) : Link := { k with gapTimer := .running k.gapTimeout }

/-- The assembler back in SEEK with the gap timer stopped. -/
def Link.toSeek (k : Link) : Link := { k with assembler := .seek, gapTimer := .stopped }

/-- A lost frame counted in rx_discards (R131). -/
def Link.discardFrame (k : Link) : Link := { k with rxDiscards := add8 k.rxDiscards 1 }

/-- A frame in assembly discarded as truncated: counted in both places (R129, R130, R141). -/
def Link.truncate (k : Link) : Link :=
  { k.toSeek.discardFrame with counters := { k.counters with truncated := inc16 k.counters.truncated } }

/-- A command frame routed to the inbound queue, or discarded and counted when the queue is full (R135). -/
def Link.enqueue (k : Link) (f : Frame) : Link :=
  if k.inbound.length < Config.inboundCapacity then { k with inbound := k.inbound ++ [f] }
  else { k.discardFrame with counters := { k.counters with queueFull := inc16 k.counters.queueFull } }

/-- The channel and sequence number of a well-formed ACK payload (R134). -/
def ackOperands (p : List Byte) : Option (ChanId × Byte) :=
  if p.length == 4 && byteAt p 2 == 0 && byteAt p 3 == 0 then
    (indexOf 16 (byteAt p 0)).map fun c => (c, byteAt p 1)
  else none

/-- A good frame routed by its TYPE (R134). -/
def State.route (s : State) (f : Frame) : Raising :=
  if f.type = FrameType.ack then
    match ackOperands f.payload with
    | some (c, q) => s.acknowledge c q
    | none =>
      (s.modLink fun k =>
        { k with counters := { k.counters with malformedAcks := inc16 k.counters.malformedAcks } }, [])
  else (s.modLink fun k => k.enqueue f, [])

/-- The frame that a LEN byte and the LEN bytes after it make. -/
def frameOf (content : List Byte) : Frame := ⟨byteAt content 0, byteAt content 1, content.drop 2⟩

/-- A complete frame checked against its CRC and, if good, routed (R133, R134). `body` is what was collected
after LEN: LEN bytes, then the two CRC bytes. -/
def State.checkFrame (s : State) (len : Byte) (body : List Byte) : Raising :=
  let content := body.take len.toNat
  if crc16 (len :: content) = halfAt body len.toNat then s.route (frameOf content)
  else
    (s.modLink fun k =>
      { k.discardFrame with counters := { k.counters with crcErrors := inc16 k.counters.crcErrors } }, [])

/-- A good byte taken by the assembler (R129). -/
def State.takeByte (s : State) (b : Byte) : Raising :=
  match s.link.assembler with
  | .seek =>
    if b = Config.sync then (s.modLink fun k => { k.startGap with assembler := .length }, []) else (s, [])
  | .length =>
    if 2 ≤ b.toNat ∧ b.toNat ≤ 250 then
      (s.modLink fun k => { k.startGap with assembler := .body b [] }, [])
    else (s.modLink Link.truncate, [])
  | .body len collected =>
    let body := collected ++ [b]
    if body.length < len.toNat + 2 then
      (s.modLink fun k => { k.startGap with assembler := .body len body }, [])
    else (s.modLink Link.toSeek).checkFrame len body

/-- BYTE_ARRIVAL (R128, R129). In WAIT_MARK no character is begun, so no byte arrives. -/
def execByteArrival (b : Byte) (s : State) : Host.Outcome State Fault Refusal :=
  .next <|
    match s.link.receiver with
    | .readyForStart => ((s.modLink fun k => { k with rxChar := none }).takeByte b).settle
    | .waitMark => s

/-- A framing error taken by the assembler (R132): a frame in assembly is abandoned and counted in
rx_discards. -/
def Link.abandonFrame (k : Link) : Link :=
  match k.assembler with
  | .seek => k
  | .length => k.toSeek.discardFrame
  | .body _ _ => k.toSeek.discardFrame

/-- BYTE_FRAMING_ERROR (R128, R132). -/
def execByteFramingError (s : State) : Host.Outcome State Fault Refusal :=
  .next <|
    match s.link.receiver with
    | .readyForStart =>
      s.modLink fun k =>
        { k.abandonFrame with
          counters := { k.counters with framing := inc16 k.counters.framing }
          receiver := .waitMark
          rxChar := none }
    | .waitMark => s

/-- GAP_TIMER_EXPIRY (R130). A timer that does not run does not expire (log entry 1). -/
def execGapTimerExpiry (s : State) : Host.Outcome State Fault Refusal :=
  .next <|
    match s.link.gapTimer with
    | .running _ => s.modLink Link.truncate
    | .stopped => s

/-! ## The level of HRX (R128, R145) -/

/-- The space timer runs exactly in SPACE, with an expiry of 2 ms from the change to space (R145). -/
def Link.spaceTimer (k : Link) : Timer :=
  match k.detector with
  | .space => .running Config.breakTime
  | .idle => .stopped
  | .broken => .stopped

/-- What a change from mark to space makes of the character being sampled: in READY_FOR_START, with none being
sampled, it begins one, whose start bit it is (R128). -/
def Link.startBit (k : Link) : Option (List Bool) :=
  match k.receiver, k.rxChar with
  | .readyForStart, none => some []
  | _, c => c

/-- HRX at space. Where it was at mark, that is a change: the space timer starts (R145), and a receiver that
looks for a start bit has found one (R128). A line already at space changes nothing. -/
def Link.hrxToSpace (k : Link) : Link :=
  match k.detector with
  | .idle => { k with detector := .space, rxChar := k.startBit }
  | .space => k
  | .broken => k

/-- HRX at mark: the space timer stops, or the break ends (R145); a receiver in WAIT_MARK is ready for a start
bit again (R128). -/
def Link.hrxToMark (k : Link) : Link := { k with detector := .idle, receiver := .readyForStart }

/-- HRX_CHANGES_TO_SPACE (R128, R145). -/
def execHrxChangesToSpace (s : State) : Host.Outcome State Fault Refusal := .next (s.modLink Link.hrxToSpace)

/-- HRX_CHANGES_TO_MARK (R128, R145). -/
def execHrxChangesToMark (s : State) : Host.Outcome State Fault Refusal := .next (s.modLink Link.hrxToMark)

end Sys2Proof.Machine
end

