-- ==== Sys2Proof/Machine/Arbiter.lean ====
section
/-! DEFINITION. The transmit arbiter (07_transmit_arbitration_and_notices.md): eligibility, the order of
choice, the frames it builds (section 9.5), the ends of a transmission. -/

namespace Sys2Proof.Machine

/-! ## The choice (R100, R117, R120, R124) -/

/-- Eligible for a new-batch transmission (R100). -/
def State.eligible (s : State) (c : ChanId) : Bool :=
  let d := s.deliv c
  let g := (s.chan c).config
  !d.readyOrder.isEmpty && (g.autoAck || d.count .inflight < g.window)

/-- The lowest-numbered channel whose operation slot is UNREPORTED (R120). -/
def State.completionWaiting (s : State) : Option ChanId :=
  (List.finRange 16).find? fun c => (s.chan c).opSlot.isUnreported

/-- The first eligible channel of the first class that has one, in the order of its list (R124). -/
def State.batchChannel (s : State) : Option ChanId :=
  (List.finRange 4).findSome? fun k => (s.arbiter.list k).find? s.eligible

/-- The batch that a new-batch transmission would carry (R101, R124). -/
def State.newBatch (s : State) : Option (ChanId × BatchId) :=
  s.batchChannel.bind fun c => (s.deliv c).readyOrder.head?.map fun b => (c, b)

/-- The source the arbiter takes at a choice: the first of the order of R117 that has a frame waiting; none
when nothing waits (R116). -/
def State.choice (s : State) : Option Source :=
  if s.link.greeting then some .greeting
  else if !s.link.replies.isEmpty then some .reply
  else
    match s.completionWaiting with
    | some c => some (.operation c)
    | none =>
      if !s.arbiter.notices.isEmpty then some .notice
      else
        match s.resend with
        | (c, b) :: _ => some (.resend c b)
        | [] => s.newBatch.map fun p => .batch p.1 p.2

/-! ## Frames (section 9.5, R154) -/

/-- The greeting (R118, R150). -/
def Link.hello (k : Link) : Frame :=
  ⟨FrameType.hello, 0,
   halfBytes Config.partCode ++ [Config.revision, k.cause.code, natByte k.rate.val] ++ Config.capacities⟩

/-- A REPLY frame (R119, section 9.4). -/
def Reply.frame (r : Reply) : Frame :=
  ⟨FrameType.reply, r.tag, r.type :: r.status.code :: r.rxDiscards :: r.body⟩

/-- A DONE frame built from the operation slot (R12); a slot that is not UNREPORTED has none to report. -/
def doneFrame (c : ChanId) : OpSlot → Frame
  | .unreported op tag status => ⟨FrameType.done, tag, [natByte c.val, op.code, status.code, 0]⟩
  | .pending op tag => ⟨FrameType.done, tag, [natByte c.val, op.code, 0, 0]⟩
  | .none => ⟨FrameType.done, 0, [natByte c.val, 0, 0, 0]⟩

/-- The kind code of a notice (section 9.6). -/
def Notice.code : Notice → Byte
  | .laneLocked _ => 1
  | .laneLost _ _ => 2
  | .laneOverrun _ => 3
  | .watchTrip _ _ _ _ => 4
  | .watchClear _ _ _ _ => 5
  | .deliveryLost _ _ _ => 6
  | .staleAck _ _ => 7
  | .memoryFault _ _ => 8
  | .channelStopped _ => 9

/-- The argument bytes of a notice, payload bytes 2 to 10; those its kind does not use are 0 (section 9.5). -/
def Notice.arguments : Notice → List Byte
  | .laneLocked l => natByte l.val :: List.replicate 8 0
  | .laneLost l cause => natByte l.val :: cause.code :: List.replicate 7 0
  | .laneOverrun l => natByte l.val :: List.replicate 8 0
  | .watchTrip w c index v => natByte w.val :: natByte c.val :: wordBytes index ++ outputBytes v
  | .watchClear w c index v => natByte w.val :: natByte c.val :: wordBytes index ++ outputBytes v
  | .deliveryLost c q lost => natByte c.val :: q :: wordBytes lost ++ List.replicate 3 0
  | .staleAck c q => natByte c.val :: q :: List.replicate 7 0
  | .memoryFault c cause => natByte c.val :: cause.code :: List.replicate 7 0
  | .channelStopped c => natByte c.val :: 2 :: List.replicate 7 0

/-- A NOTICE frame with the missed count it carries (R122). -/
def Notice.frame (n : Notice) (missed : Byte) : Frame :=
  ⟨FrameType.notice, 0, n.code :: missed :: n.arguments⟩

/-- A BATCH frame (R101, R107, section 9.5). -/
def BatchSlot.frame (t : BatchSlot) (c : ChanId) (resend : Bool) : Frame :=
  ⟨FrameType.batch, 0,
   [natByte c.val, t.session, t.sequence, t.flags.byte resend] ++ halfBytes t.lost ++
     [natByte t.outputs.length, 0] ++ wordBytes t.firstIndex ++ t.outputs.flatMap outputBytes⟩

/-! ## Transmission start (R101, R107, R116, R117, R122) -/

/-- The transmission in progress recorded: the transmitter is BUSY. -/
def State.transmit (s : State) (source : Source) (frame : Frame) : State :=
  s.modArb fun a => { a with transmission := some ⟨source, frame⟩ }

/-- The head notice leaves the queue with the missed count, which becomes 0 (R122). -/
def State.startNotice (s : State) : State :=
  match s.arbiter.notices with
  | [] => s
  | n :: rest =>
    (s.modArb fun a => { a with notices := rest, missed := 0 }).transmit .notice (n.frame s.arbiter.missed)

/-- A retransmission started (R107). -/
def State.startResend (s : State) (c : ChanId) (b : BatchId) : State :=
  let frame := ((s.deliv c).slot b).frame c true
  let s := { s with resend := s.resend.tail }
  let s := s.modDeliv c fun d => d.modSlot b fun t => { t with beingSent := true }
  let s := s.modChan c fun ch =>
    { ch with counters := { ch.counters with retransmissions := inc16 ch.counters.retransmissions } }
  s.transmit (.resend c b) frame

/-- A batch that leaves the ready order to be sent: INFLIGHT in acknowledged mode, READY still in
auto-acknowledge mode (R101, R109). -/
def ChanDelivery.send (d : ChanDelivery) (b : BatchId) (autoAck : Bool) : ChanDelivery :=
  let d := { d with readyOrder := d.readyOrder.tail }
  if autoAck then d.modSlot b fun t => { t with beingSent := true }
  else
    { d.modSlot b (fun t =>
        { t with beingSent := true, state := .inflight, retry := 0, timer := .stopped }) with
      inflightOrder := d.inflightOrder ++ [b] }

/-- A new-batch transmission started: the channel goes to the tail of its class's list (R101, R123). -/
def State.startBatch (s : State) (c : ChanId) (b : BatchId) : State :=
  let frame := ((s.deliv c).slot b).frame c false
  let g := (s.chan c).config
  ((s.modArb fun a => a.toTail c g.cls).modDeliv c fun d => d.send b g.autoAck).transmit (.batch c b) frame

/-- A transmission started from the source chosen (the table of R117). -/
def State.startFrom (s : State) : Source → State
  | .greeting => s.transmit .greeting s.link.hello
  | .reply =>
    match s.link.replies with
    | r :: _ => s.transmit .reply r.frame
    | [] => s
  | .operation c => s.transmit (.operation c) (doneFrame c (s.chan c).opSlot)
  | .notice => s.startNotice
  | .resend c b => s.startResend c b
  | .batch c b => s.startBatch c b

/-- TRANSMISSION_START: the transmitter is FREE and a frame waits (R116). -/
def execTransmissionStart (s : State) : Host.Outcome State Fault Refusal :=
  .next <|
    match s.arbiter.transmission, s.choice with
    | none, some source => s.startFrom source
    | _, _ => s

/-! ## Send completion (R116 to R120, R140, R141, R143) -/

/-- The new line rate and gap timeout take effect (R141). A change of rate drops the character being sampled
and discards a frame in assembly; a gap timer that runs on keeps its expiry. -/
def Link.applyRate (k : Link) (rate : Fin 6) (gap : Nat) : Link :=
  let k' :=
    if k.rate = rate then k
    else
      match k.assembler with
      | .seek => { k with rxChar := none }
      | .length => { k.truncate with rxChar := none }
      | .body _ _ => { k.truncate with rxChar := none }
  { k' with rate := rate, gapTimeout := gap }

/-- What the send completion of a reply brings about beyond its removal: LINK_SET's values (R140) and the
device reset (R143). -/
def State.replyEffect (s : State) (r : Reply) : State :=
  if r.type = Command.code .linkSet ∧ r.status = .ok then
    match indexOf 6 (byteAt r.body 0) with
    | some rate => s.modLink fun k => k.applyRate rate (byteAt r.body 1).toNat
    | none => s
  else if r.type = Command.code .deviceReset ∧ r.status = .ok then s.performDeviceReset
  else s

/-- The head reply removed, and its effect (R119). -/
def State.replySent (s : State) : State :=
  match s.link.replies with
  | r :: rest => (s.modLink fun k => { k with replies := rest }).replyEffect r
  | [] => s

/-- The completion claim that belongs to the frame's kind (R116). -/
def State.sent (s : State) : Source → Raising
  | .greeting => (s.modLink fun k => { k with greeting := false }, [])
  | .reply => (s.replySent, [])
  | .operation c =>
    (s.modChan c fun ch =>
      { ch with opSlot := if ch.opSlot.isUnreported then .none else ch.opSlot }, [])
  | .notice => (s, [])
  | .resend c b => s.batchSent c b
  | .batch c b => s.batchSent c b

/-- The transmission record removed: the transmitter is FREE. -/
def State.freeTransmitter (s : State) : State := s.modArb fun a => { a with transmission := none }

/-- SEND_COMPLETION (R116). With the transmitter FREE nothing completes (log entry 1). -/
def execSendCompletion (s : State) : Host.Outcome State Fault Refusal :=
  .next <|
    match s.arbiter.transmission with
    | none => s
    | some t => (s.freeTransmitter.sent t.source).settle

/-! ## Abandonment at a link reset (R112, R122, R125) -/

/-- The missed count that a NOTICE frame carries: payload byte 1 (section 9.5). -/
def Frame.missedCarried (f : Frame) : Nat := (byteAt f.payload 1).toNat

/-- The abandoned frame settled by its kind (the table of R125). -/
def State.abandon (s : State) (t : Transmission) : State :=
  match t.source with
  | .greeting => s
  | .reply => s
  | .operation _ => s
  | .notice => s.modArb fun a => { a with missed := add8 a.missed (t.frame.missedCarried + 1) }
  | .resend c b => s.batchAbandoned c b
  | .batch c b => s.batchAbandoned c b

/-- The transmission in progress abandoned, if one exists (R125). -/
def State.abandonTransmission (s : State) : State :=
  match s.arbiter.transmission with
  | none => s
  | some t => s.freeTransmitter.abandon t

end Sys2Proof.Machine
end

