-- ==== Sys2Proof/Machine/Resets.lean ====
section
/-! DEFINITION. The resets that are rows of the table: power, pin and link (sections 8.6 and 8.7). The device
reset is performed at a send completion or at a link reset. -/

namespace Sys2Proof.Machine

/-- POWER_RESET (R148). -/
def execPowerReset (hrxSpace : Bool) (s : State) : Host.Outcome State Fault Refusal :=
  .next (s.performPowerReset .power hrxSpace)

/-- PIN_RESET (R148). -/
def execPinReset (hrxSpace : Bool) (s : State) : Host.Outcome State Fault Refusal :=
  .next (s.performPowerReset .pin hrxSpace)

/-- The link reset (R146): what the link controller does, and the abandonment of the frame in progress. -/
def State.performLinkReset (s : State) : State :=
  s.abandonTransmission.modLink fun k =>
    { k with
      assembler := .seek, gapTimer := .stopped, inbound := [], replies := [], rxDiscards := 0,
      cause := .link, greeting := true, detector := .broken }

/-- LINK_RESET: the space timer expires in SPACE (R145, R146); a pending device reset is performed with it
(R147). With no space timer running nothing expires (log entry 1). -/
def execLinkReset (s : State) : Host.Outcome State Fault Refusal :=
  .next <|
    match s.link.detector with
    | .space =>
      if s.link.resetPending then s.performLinkReset.performDeviceReset else s.performLinkReset
    | .idle => s
    | .broken => s

end Sys2Proof.Machine
end

