-- ==== Sys2Proof/Machine/Dispatch.lean ====
section
/-! DEFINITION. One arm for each command: the meaning it calls. -/

namespace Sys2Proof.Machine

def exec (i : Instr) (s : State) : Host.Outcome State Fault Refusal :=
  match i with
  | .powerReset hrxSpace => Sys2Proof.Machine.execPowerReset hrxSpace s
  | .pinReset hrxSpace => Sys2Proof.Machine.execPinReset hrxSpace s
  | .linkReset => Sys2Proof.Machine.execLinkReset s
  | .gapTimerExpiry => Sys2Proof.Machine.execGapTimerExpiry s
  | .byteArrival value => Sys2Proof.Machine.execByteArrival value s
  | .byteFramingError => Sys2Proof.Machine.execByteFramingError s
  | .wordArrival lane word marker => Sys2Proof.Machine.execWordArrival lane word marker s
  | .dispatchStart => Sys2Proof.Machine.execDispatchStart s
  | .damageMarking channel k => Sys2Proof.Machine.execDamageMarking channel k s
  | .dispatchCompletion choice => Sys2Proof.Machine.execDispatchCompletion choice s
  | .ackTimerExpiry channel slot => Sys2Proof.Machine.execAckTimerExpiry channel slot s
  | .transmissionStart => Sys2Proof.Machine.execTransmissionStart s
  | .sendCompletion => Sys2Proof.Machine.execSendCompletion s
  | .ping tag payload => Sys2Proof.Machine.execPing tag payload s
  | .deviceReset tag payload => Sys2Proof.Machine.execDeviceReset tag payload s
  | .linkSet tag payload => Sys2Proof.Machine.execLinkSet tag payload s
  | .deviceQuery tag payload => Sys2Proof.Machine.execDeviceQuery tag payload s
  | .bankOpen tag payload => Sys2Proof.Machine.execBankOpen tag payload s
  | .bankData tag payload => Sys2Proof.Machine.execBankData tag payload s
  | .bankSeal tag payload upsets => Sys2Proof.Machine.execBankSeal tag payload upsets s
  | .bankFree tag payload => Sys2Proof.Machine.execBankFree tag payload s
  | .bankQuery tag payload => Sys2Proof.Machine.execBankQuery tag payload s
  | .laneSet tag payload => Sys2Proof.Machine.execLaneSet tag payload s
  | .laneQuery tag payload => Sys2Proof.Machine.execLaneQuery tag payload s
  | .chanConfig tag payload => Sys2Proof.Machine.execChanConfig tag payload s
  | .chanBind tag payload => Sys2Proof.Machine.execChanBind tag payload s
  | .chanStart tag payload => Sys2Proof.Machine.execChanStart tag payload s
  | .chanStop tag payload => Sys2Proof.Machine.execChanStop tag payload s
  | .chanAbort tag payload => Sys2Proof.Machine.execChanAbort tag payload s
  | .chanClear tag payload => Sys2Proof.Machine.execChanClear tag payload s
  | .chanSwap tag payload => Sys2Proof.Machine.execChanSwap tag payload s
  | .chanQuery tag payload => Sys2Proof.Machine.execChanQuery tag payload s
  | .chanRotate tag payload => Sys2Proof.Machine.execChanRotate tag payload s
  | .watchSet tag payload => Sys2Proof.Machine.execWatchSet tag payload s
  | .watchOff tag payload => Sys2Proof.Machine.execWatchOff tag payload s
  | .watchQuery tag payload => Sys2Proof.Machine.execWatchQuery tag payload s
  | .badType type tag payload => Sys2Proof.Machine.execBadType type tag payload s
  | .hrxChangesToSpace => Sys2Proof.Machine.execHrxChangesToSpace s
  | .hrxChangesToMark => Sys2Proof.Machine.execHrxChangesToMark s

end Sys2Proof.Machine
end

