-- ==== Sys2Proof/Machine/Step.lean ====
section
/-! DEFINITION. One step: the command at the front of the queue is taken. -/

namespace Sys2Proof.Machine

/-- The command at the front leaves the queue and has its effect. On an empty queue the oldest watch stop request
that waits is taken (log entry 12), and with none the block idles (log entry 3). -/
def step (s : State) : Host.Outcome State Fault Refusal :=
  match s.pending with
  | [] => .next s.takeStopRequest.settle
  | c :: rest => exec c { s with pending := rest }

/-- The command a word of the opcode table spells put at the front of the queue; no row gives bits, so no word
spells one. -/
def State.withFetchWord (s : State) (nbits w : Nat) : State :=
  match decodeTableWord nbits w with
  | none => s
  | some c => { s with pending := c :: s.pending }

end Sys2Proof.Machine
end

