-- ==== Sys2Proof/Machine/Wires.lean ====
section
/-! DEFINITION. The bits on the wires (R46, R128). The table's rows begin at a whole word and a whole character;
here stands how sampled bits form them, so that a run of bits is known to be a run of commands (log entry
14). -/

namespace Sys2Proof.Machine

/-! ## Lane words (R46) -/

/-- The value of sixteen bits, most significant bit first. -/
def wordOfBits (bits : List Bool) : Sample :=
  BitVec.ofNat 16 (bits.foldl (fun acc b => 2 * acc + b.toNat) 0)

/-- In HUNT a marker that is high after being low, or at the first bit sampled, begins a new word; further
high bits within a word that carries the marker are ignored. -/
def PartialWord.restarts (w : PartialWord) (marker : Bool) : Bool :=
  marker && w.lastMarker != some true && !(w.marker && !w.bits.isEmpty)

/-- One bit gathered; the marker level counts at a word's first bit only. -/
def PartialWord.gather (w : PartialWord) (hunting data marker : Bool) : PartialWord :=
  let w := if hunting && w.restarts marker then { w with bits := [] } else w
  { bits := w.bits ++ [data]
    marker := if w.bits.isEmpty then marker else w.marker
    lastMarker := if hunting then some marker else none }

/-- The data and marker lines sampled at a rising edge of the bit clock: the lane record after, and the word
that arrives when the bit is its sixteenth. A lane in OFF samples nothing (R48). -/
def Lane.sampleBit (r : Lane) (l : LaneId) (data marker : Bool) : Lane × Option Instr :=
  match r.state with
  | .off => (r, none)
  | .hunt | .check | .locked =>
    let w := r.partialWord.gather (r.state == .hunt) data marker
    ({ r with partialWord := w },
     if w.bits.length = 16 then some (.wordArrival l (wordOfBits w.bits) w.marker) else none)

/-- A rising edge of a lane's bit clock: a word that is complete is the next command. -/
def State.laneBit (s : State) (l : LaneId) (data marker : Bool) : State :=
  let r := (s.lane l).sampleBit l data marker
  let s := s.modLane l fun _ => r.1
  match r.2 with
  | none => s
  | some c => { s with pending := c :: s.pending }

/-! ## Characters of the host link (R128) -/

/-- The value of eight data bits, least significant bit first. -/
def byteOfBits (bits : List Bool) : Byte := bitsToByte bits

/-- The ten line levels of a character, mark as true: a start bit, eight data bits with the least significant
first, one stop bit. -/
def characterBits (b : Byte) : List Bool :=
  false :: (List.range 8).map b.getLsbD ++ [true]

/-- The level of HRX for one bit time. -/
def Link.hrxLevel (k : Link) (mark : Bool) : Link := if mark then k.hrxToMark else k.hrxToSpace

/-- A bit time of HRX at one level. With no character being sampled the line is watched for the change from mark
to space that begins one, so a line that is at space already begins none. A character being sampled gathers its
data bits, and its stop bit ends it in a good byte or a framing error. -/
def Link.sampleHrx (k : Link) (mark : Bool) : Link × Option Instr :=
  match k.receiver, k.rxChar with
  | .readyForStart, some bits =>
    if bits.length < 8 then ({ k.hrxLevel mark with rxChar := some (bits ++ [mark]) }, none)
    else (k.hrxLevel mark, some (if mark then .byteArrival (byteOfBits bits) else .byteFramingError))
  | _, _ => (k.hrxLevel mark, none)

/-- A bit time of HRX: a character that ends is the next command. -/
def State.hrxBit (s : State) (mark : Bool) : State :=
  let r := s.link.sampleHrx mark
  let s := s.modLink fun _ => r.1
  match r.2 with
  | none => s
  | some c => { s with pending := c :: s.pending }

end Sys2Proof.Machine
end

