-- ==== Sys2Proof/Safety.lean ====
section
/-! DEFINITION. What claims are stated in: when a command occurs and is timely (the order that the manual asks
of the part's own events), and the laws of the device as predicates of a state. -/

namespace Sys2Proof.Machine

/-! ## When a command occurs (log entries 1 to 3) -/

/-- The frame that a row takes from the inbound queue; none for the rows that are no host commands. -/
def takenFrame : Instr → Option Frame
  | .ping tag p => some ⟨Command.code .ping, tag, p⟩
  | .deviceReset tag p => some ⟨Command.code .deviceReset, tag, p⟩
  | .linkSet tag p => some ⟨Command.code .linkSet, tag, p⟩
  | .deviceQuery tag p => some ⟨Command.code .deviceQuery, tag, p⟩
  | .bankOpen tag p => some ⟨Command.code .bankOpen, tag, p⟩
  | .bankData tag p => some ⟨Command.code .bankData, tag, p⟩
  | .bankSeal tag p _ => some ⟨Command.code .bankSeal, tag, p⟩
  | .bankFree tag p => some ⟨Command.code .bankFree, tag, p⟩
  | .bankQuery tag p => some ⟨Command.code .bankQuery, tag, p⟩
  | .laneSet tag p => some ⟨Command.code .laneSet, tag, p⟩
  | .laneQuery tag p => some ⟨Command.code .laneQuery, tag, p⟩
  | .chanConfig tag p => some ⟨Command.code .chanConfig, tag, p⟩
  | .chanBind tag p => some ⟨Command.code .chanBind, tag, p⟩
  | .chanStart tag p => some ⟨Command.code .chanStart, tag, p⟩
  | .chanStop tag p => some ⟨Command.code .chanStop, tag, p⟩
  | .chanAbort tag p => some ⟨Command.code .chanAbort, tag, p⟩
  | .chanClear tag p => some ⟨Command.code .chanClear, tag, p⟩
  | .chanSwap tag p => some ⟨Command.code .chanSwap, tag, p⟩
  | .chanQuery tag p => some ⟨Command.code .chanQuery, tag, p⟩
  | .chanRotate tag p => some ⟨Command.code .chanRotate, tag, p⟩
  | .watchSet tag p => some ⟨Command.code .watchSet, tag, p⟩
  | .watchOff tag p => some ⟨Command.code .watchOff, tag, p⟩
  | .watchQuery tag p => some ⟨Command.code .watchQuery, tag, p⟩
  | .badType type tag p => some ⟨type, tag, p⟩
  | .powerReset _ => none
  | .pinReset _ => none
  | .linkReset => none
  | .gapTimerExpiry => none
  | .byteArrival _ => none
  | .byteFramingError => none
  | .wordArrival _ _ _ => none
  | .dispatchStart => none
  | .damageMarking _ _ => none
  | .dispatchCompletion _ => none
  | .ackTimerExpiry _ _ => none
  | .transmissionStart => none
  | .sendCompletion => none
  | .hrxChangesToSpace => none
  | .hrxChangesToMark => none

/-- A command waits and can be taken (R136). -/
def State.takingDue (s : State) : Bool :=
  !s.link.inbound.isEmpty && s.link.replies.length < Config.replyCapacity && !s.link.resetPending

/-- The engine is idle and a FIFO holds an entry (R64). -/
def State.dispatchDue (s : State) : Bool := s.engine.dispatch.isNone && s.nextLane.isSome

/-- The transmitter is FREE and a frame waits (R116). -/
def State.transmissionDue (s : State) : Bool := s.arbiter.transmission.isNone && s.choice.isSome

/-- One of the events that the part takes of its own accord, and at once, is due (R64, R116, R136). -/
def State.quiet (s : State) : Bool := !s.takingDue && !s.dispatchDue && !s.transmissionDue

/-- The command is one that can occur in the state. -/
def occurs (s : State) : Instr → Bool
  | .linkReset => s.link.detector == .space
  | .gapTimerExpiry => s.link.gapTimer != .stopped
  | .byteArrival _ => s.link.receiver == .readyForStart
  | .byteFramingError => s.link.receiver == .readyForStart
  | .wordArrival l _ _ => (s.lane l).state != .off
  | .dispatchStart => s.dispatchDue
  | .damageMarking c k =>
    match s.entryOf c with
    | none => false
    | some (d, e) =>
      match e.reads with
      | none => false
      | some b => s.readsCoeff d e (s.bank b) k.val
  | .dispatchCompletion _ => s.engine.dispatch.isSome
  | .ackTimerExpiry c b => (s.deliv c).timed b
  | .transmissionStart => s.transmissionDue
  | .sendCompletion => s.arbiter.transmission.isSome
  | .hrxChangesToSpace => s.link.detector == .idle
  | .hrxChangesToMark => s.link.detector != .idle
  | .powerReset _ => true
  | .pinReset _ => true
  | .ping tag p => s.canTake ⟨Command.code .ping, tag, p⟩
  | .deviceReset tag p => s.canTake ⟨Command.code .deviceReset, tag, p⟩
  | .linkSet tag p => s.canTake ⟨Command.code .linkSet, tag, p⟩
  | .deviceQuery tag p => s.canTake ⟨Command.code .deviceQuery, tag, p⟩
  | .bankOpen tag p => s.canTake ⟨Command.code .bankOpen, tag, p⟩
  | .bankData tag p => s.canTake ⟨Command.code .bankData, tag, p⟩
  | .bankSeal tag p _ => s.canTake ⟨Command.code .bankSeal, tag, p⟩
  | .bankFree tag p => s.canTake ⟨Command.code .bankFree, tag, p⟩
  | .bankQuery tag p => s.canTake ⟨Command.code .bankQuery, tag, p⟩
  | .laneSet tag p => s.canTake ⟨Command.code .laneSet, tag, p⟩
  | .laneQuery tag p => s.canTake ⟨Command.code .laneQuery, tag, p⟩
  | .chanConfig tag p => s.canTake ⟨Command.code .chanConfig, tag, p⟩
  | .chanBind tag p => s.canTake ⟨Command.code .chanBind, tag, p⟩
  | .chanStart tag p => s.canTake ⟨Command.code .chanStart, tag, p⟩
  | .chanStop tag p => s.canTake ⟨Command.code .chanStop, tag, p⟩
  | .chanAbort tag p => s.canTake ⟨Command.code .chanAbort, tag, p⟩
  | .chanClear tag p => s.canTake ⟨Command.code .chanClear, tag, p⟩
  | .chanSwap tag p => s.canTake ⟨Command.code .chanSwap, tag, p⟩
  | .chanQuery tag p => s.canTake ⟨Command.code .chanQuery, tag, p⟩
  | .chanRotate tag p => s.canTake ⟨Command.code .chanRotate, tag, p⟩
  | .watchSet tag p => s.canTake ⟨Command.code .watchSet, tag, p⟩
  | .watchOff tag p => s.canTake ⟨Command.code .watchOff, tag, p⟩
  | .watchQuery tag p => s.canTake ⟨Command.code .watchQuery, tag, p⟩
  | .badType type tag p => s.canTake ⟨type, tag, p⟩ && (Command.ofCode type).isNone

/-- The command is timely: it can occur, and while an event that the part takes at once is due, nothing from
outside comes before it. -/
def timely (s : State) (i : Instr) : Bool :=
  occurs s i &&
    (s.quiet || i == .dispatchStart || i == .transmissionStart || (takenFrame i).isSome)

/-! ## The taking of a command, as statements say it (R136, R137) -/

/-- The frame stands at the head of the inbound queue and can be taken: the reply queue has room and no device
reset is pending (R136). -/
structure State.Takes (s : State) (f : Frame) : Prop where
  head    : s.link.inbound.head? = some f
  room    : s.link.replies.length < 8
  running : s.link.resetPending = false

/-- The state after the frame at the head has left its queue and its one reply is queued: rx_discards is
copied into the reply and becomes 0 (R137). -/
def State.answered (s : State) (tag type : Byte) (status : Status) (body : List Byte) : State :=
  { s with
    link := { s.link with
      inbound := s.link.inbound.tail
      replies := s.link.replies ++ [⟨tag, type, status, body, s.link.rxDiscards⟩]
      rxDiscards := 0 } }

/-- The length of the reply body of a command that answers neither BAD_TYPE nor BAD_LENGTH (the table of
section 9.4). -/
def bodyLength (c : Command) (payload : List Byte) : Nat :=
  match c with
  | .ping => payload.length
  | .linkSet => 2
  | .deviceQuery => 16
  | .bankOpen => 6
  | .bankData => 2
  | .bankSeal => 2
  | .bankQuery => 13
  | .laneQuery => 12
  | .chanQuery => 49
  | .watchQuery => 15
  | .deviceReset => 0
  | .bankFree => 0
  | .laneSet => 0
  | .chanConfig => 0
  | .chanBind => 0
  | .chanStart => 0
  | .chanStop => 0
  | .chanAbort => 0
  | .chanClear => 0
  | .chanSwap => 0
  | .chanRotate => 0
  | .watchSet => 0
  | .watchOff => 0

/-- The completion guard (R68): the entry is not struck, and its channel is in the run that the sample was
taken for. -/
def guardPasses (s : State) (e : SnapEntry) : Prop :=
  e.struck = false ∧ ((s.chan e.channel).state = .running ∨ (s.chan e.channel).state = .stopping) ∧
    (s.chan e.channel).session = e.session

/-! ## The close of a stop, as statements say it (R14, R15, R99, R110) -/

/-- The notice of a pending lost count that the close reports (R99); none when nothing is pending. -/
def lossNotice (c : ChanId) (d : ChanDelivery) : List Notice :=
  if d.pendingLost = 0 then [] else [.deliveryLost c d.seqCounter (d.pendingLost.zeroExtend 32)]

/-- What the close of a STOPPING channel `c` makes of its record and its batches, and the notices it raises.
It is made once per stop: with the drain watch on, nothing happens. The lowest FILLING batch becomes READY with
FINAL; with none, a pending lost count is reported. The drain watch is then on, unless no batch is left: then
the stop ends at once, by its cause. -/
structure Closes (c : ChanId) (ch : Channel) (d : ChanDelivery) (ch' : Channel) (d' : ChanDelivery)
    (ns : List Notice) : Prop where
  once    : d.drainWatch = true → ch' = ch ∧ d' = d ∧ ns = []
  filling : ∀ b, d.drainWatch = false → (d.slot b).state = .filling →
    (∀ x, x < b → (d.slot x).state ≠ .filling) →
    ch' = ch ∧ ns = [] ∧ d' = { d with
      slots := d.slots.set b.val { d.slot b with
        state := .ready, sequence := d.seqCounter, flags := { (d.slot b).flags with final := true } }
      seqCounter := d.seqCounter + 1
      readyOrder := d.readyOrder ++ [b]
      drainWatch := true }
  drains  : d.drainWatch = false → (∀ x, (d.slot x).state ≠ .filling) → (∃ x, (d.slot x).state ≠ .free) →
    ch' = ch ∧ ns = lossNotice c d ∧ d' = { d with pendingLost := 0, drainWatch := true }
  command : d.drainWatch = false → (∀ x, (d.slot x).state = .free) → ch.stopCause = some .command →
    ch' = { ch with state := .ready, stopCause := none, opSlot := ch.opSlot.finishOp .stop .ok } ∧
      ns = lossNotice c d ∧ d' = { d with pendingLost := 0, drainWatch := false }
  watch   : d.drainWatch = false → (∀ x, (d.slot x).state = .free) → ch.stopCause = some .watch →
    ch' = { ch with state := .ready, stopCause := none } ∧
      ns = lossNotice c d ++ [.channelStopped c] ∧ d' = { d with pendingLost := 0, drainWatch := false }

/-! ## Queue bounds (R55, R107, R121, R135, R137) -/

/-- No queue holds more than it has room for. -/
structure State.QueuesBounded (s : State) : Prop where
  inbound : s.link.inbound.length ≤ 4
  replies : s.link.replies.length ≤ 8
  notices : s.arbiter.notices.length ≤ 16
  fifos   : ∀ l, (s.lane l).fifo.length ≤ 32

/-! ## The link law (R129, R130, R139) -/

/-- The link controller's own ranges: the gap timeout, and the values that a LINK_SET reply will put in force,
lie in their ranges; the gap timer runs exactly in LENGTH and BODY; a frame in assembly has a legal LEN and is
not complete. -/
structure State.LinkLaw (s : State) : Prop where
  gap    : 1 ≤ s.link.gapTimeout ∧ s.link.gapTimeout ≤ 50
  values : ∀ r ∈ s.link.replies, r.type = Command.code .linkSet → r.status = .ok →
    (byteAt r.body 0).toNat ≤ 5 ∧ 1 ≤ (byteAt r.body 1).toNat ∧ (byteAt r.body 1).toNat ≤ 50
  timer  : s.link.gapTimer = .stopped ↔ s.link.assembler = .seek
  body   : ∀ len l, s.link.assembler = .body len l →
    2 ≤ len.toNat ∧ len.toNat ≤ 250 ∧ l.length < len.toNat + 2

/-! ## The run law (R1, R2, R72, R83, R106) -/

/-- The configuration values lie in their ranges (R1). -/
structure ChanConfig.InRange (g : ChanConfig) : Prop where
  decimation : 1 ≤ g.decimation ∧ g.decimation ≤ 64
  shift      : g.shift ≤ 23
  batchSize  : 1 ≤ g.batchSize ∧ g.batchSize ≤ 32
  window     : 1 ≤ g.window ∧ g.window ≤ 3
  ackTimeout : 1 ≤ g.ackTimeout ∧ g.ackTimeout ≤ 2000
  retryLimit : g.retryLimit ≤ 7

/-- A watch's counts are in range, and its run count is below the count it runs towards (R83). -/
structure Watch.Law (w : Watch) : Prop where
  counts  : 1 ≤ w.hold ∧ w.hold ≤ 255 ∧ 1 ≤ w.release ∧ w.release ≤ 255
  off     : w.state = .off → w.run = 0
  clear   : w.state = .clear → w.run < w.hold
  tripped : w.state = .tripped → w.run < w.release

/-- The run law: configurations are in range, a channel in a run has its phase below D, fill counts and rings
stay within 256, retry counts within 7, and every watch obeys the watch law. A channel outside a run may hold a
phase from before a CHAN_CONFIG, which leaves the run state alone (R6). -/
structure State.RunLaw (s : State) : Prop where
  config  : ∀ c, (s.chan c).config.InRange
  phase   : ∀ c, (s.chan c).state.inRun = true → (s.chan c).phase < (s.chan c).config.decimation
  fill    : ∀ c, (s.chan c).fill ≤ 256 ∧ (s.ring c).length ≤ 256
  retries : ∀ c b, ((s.deliv c).slot b).retry ≤ 7
  watches : ∀ w, (s.watch w).Law

/-! ## The bank store's laws (R28, R30, R38, R39) -/

/-- How many channels have the bank as their active bank, and how many as their staged bank. -/
def State.references (s : State) (b : BankId) : Nat :=
  (List.finRange 16).countP (fun c => (s.chan c).active == some b) +
    (List.finRange 16).countP (fun c => (s.chan c).staged == some b)

/-- The reference law: every bank's count is the number of channels that name it (R38). -/
def State.ReferenceLaw (s : State) : Prop := ∀ b, (s.bank b).refs = s.references b

/-- How often a page is owned: by the pool, and by each bank. -/
def State.owners (s : State) (p : PageId) : Nat :=
  s.pool.count p + ((List.finRange 32).map fun b => (s.bank b).pages.count p).sum

/-- The page law: each page is in the pool or owned by exactly one bank, and a bank that is not FREE has 1 to
256 taps and owns ceil(T/64) pages (R28); a FREE bank has neither (R29). The pool is listed in ascending
order, and no bank has loaded more than its taps. -/
structure State.PageLaw (s : State) : Prop where
  once  : ∀ p, s.owners p = 1
  order : s.pool.Pairwise (· < ·)
  loads : ∀ b, (s.bank b).loaded ≤ (s.bank b).taps
  free  : ∀ b, (s.bank b).state = .free → (s.bank b).taps = 0 ∧ (s.bank b).pages = []
  owned : ∀ b, (s.bank b).state ≠ .free →
    1 ≤ (s.bank b).taps ∧ (s.bank b).taps ≤ 256 ∧ (s.bank b).pages.length = pagesFor (s.bank b).taps

/-- A bank that is in use or may be read. -/
def BankState.usable (st : BankState) : Prop := st = .sealed ∨ st = .damaged

/-- The use law: a bank is held exactly while the dispatch in flight has noted it (R39), the reference law
holds (R38), and a bank that is referenced or held is SEALED or DAMAGED (R30). -/
structure State.UseLaw (s : State) : Prop where
  held : ∀ b, (s.bank b).hold = true ↔ ∃ d, s.engine.dispatch = some d ∧ ∃ e ∈ d.snapshot, e.bank = some b
  refs : s.ReferenceLaw
  used : ∀ b, (s.bank b).refs ≠ 0 ∨ (s.bank b).hold = true → (s.bank b).state.usable

/-! ## The channel law (R2, R11, and the table of section 1.2) -/

/-- What the state of a channel says of its banks, its stop cause and its operation slot. -/
structure Channel.Law (ch : Channel) : Prop where
  active  : ch.active = none ↔ ch.state = .idle
  staged  : ch.staged.isSome ↔ ∃ tag, ch.opSlot = .pending .swap tag
  swaps   : ch.staged.isSome → ch.state = .running
  cause   : ch.stopCause.isSome ↔ ch.state = .stopping
  command : ch.stopCause = some .command ↔ ∃ tag, ch.opSlot = .pending .stop tag

/-- Every channel record obeys the channel law; no watch stop request waits for a STOPPING channel, and at most
one for any channel (R21, R90; log entry 12). -/
structure State.ChannelLaw (s : State) : Prop where
  records  : ∀ c, (s.chan c).Law
  requests : s.stopRequests.Nodup ∧ ∀ c ∈ s.stopRequests, (s.chan c).state ≠ .stopping

/-! ## The lane law (the table of section 3.2, R56) -/

/-- The position agrees with the state, the gap-pending set lists slots below M in ascending order, and the
overrun latch is set only while the FIFO holds an entry. -/
structure Lane.Law (r : Lane) : Prop where
  count    : 1 ≤ r.slotCount ∧ r.slotCount ≤ 8
  outside  : r.state = .off ∨ r.state = .hunt → r.position = 0
  check    : r.state = .check → 1 ≤ r.position ∧ r.position ≤ r.slotCount
  locked   : r.state = .locked → r.position < r.slotCount
  gaps     : r.gapPending.Pairwise (· < ·) ∧ ∀ p ∈ r.gapPending, p.val < r.slotCount
  latched  : r.latch = true → r.fifo ≠ []

/-- Every lane record obeys the lane law. -/
def State.LaneLaw (s : State) : Prop := ∀ l, (s.lane l).Law

/-! ## The rotation law (R7, R123) -/

/-- Every channel is in exactly one rotation list, once, the list of its class. -/
def State.RotationLaw (s : State) : Prop :=
  ∀ k, (s.arbiter.list k).Nodup ∧ ∀ c, c ∈ s.arbiter.list k ↔ (s.chan c).config.cls = k

/-! ## The delivery law (R95, R98, R105, R107) -/

/-- The places of a channel's batches: at most one slot is FILLING, and it is not being sent; the ready order
lists the READY batches that are not being sent, the in-flight order the INFLIGHT batches, each once. -/
structure ChanDelivery.Law (d : ChanDelivery) : Prop where
  filling  : d.count .filling ≤ 1
  unsent   : ∀ b, (d.slot b).state = .filling → (d.slot b).beingSent = false
  ready    : d.readyOrder.Nodup ∧
    ∀ b, b ∈ d.readyOrder ↔ (d.slot b).state = .ready ∧ (d.slot b).beingSent = false
  inflight : d.inflightOrder.Nodup ∧ ∀ b, b ∈ d.inflightOrder ↔ (d.slot b).state = .inflight

/-- The condition an INFLIGHT batch is in: being transmitted, waiting on its running ack timer, or listed in
the resend list; exactly one of the three (R105). -/
def State.oneCondition (s : State) (c : ChanId) (b : BatchId) : Prop :=
  let t := (s.deliv c).slot b
  (t.beingSent = true ∧ t.timer = .stopped ∧ (c, b) ∉ s.resend) ∨
    (t.beingSent = false ∧ t.timer ≠ .stopped ∧ (c, b) ∉ s.resend) ∨
    (t.beingSent = false ∧ t.timer = .stopped ∧ (c, b) ∈ s.resend)

/-- The delivery law: every batch is where its state puts it, the resend list holds INFLIGHT batches once
each, every INFLIGHT batch is in exactly one of the three conditions, and a batch that is being sent is READY
or INFLIGHT and is the one that the transmission in progress was built from. -/
structure State.DeliveryLaw (s : State) : Prop where
  batches   : ∀ c, (s.deliv c).Law
  listed    : s.resend.Nodup ∧ ∀ e ∈ s.resend, ((s.deliv e.1).slot e.2).state = .inflight
  condition : ∀ c b, ((s.deliv c).slot b).state = .inflight → s.oneCondition c b
  sending   : ∀ c b, ((s.deliv c).slot b).beingSent = true →
    (((s.deliv c).slot b).state = .ready ∨ ((s.deliv c).slot b).state = .inflight) ∧
      ∃ t, s.arbiter.transmission = some t ∧ (t.source = .batch c b ∨ t.source = .resend c b)

/-! ## The window law (R95, R101, R113) -/

/-- The entries of the dispatch in flight. -/
def State.inSnapshot (s : State) (e : SnapEntry) : Prop :=
  ∃ d, s.engine.dispatch = some d ∧ e ∈ d.snapshot

/-- The batches of a channel fit its configuration: every batch holds at least one output, a FILLING batch
fewer than N, one without FINAL that is READY or INFLIGHT at least N and none more than N, and at most W are
INFLIGHT, none in auto-acknowledge mode. -/
structure ChanDelivery.Fits (d : ChanDelivery) (g : ChanConfig) : Prop where
  sizes   : ∀ b, (d.slot b).state ≠ .free →
    1 ≤ (d.slot b).outputs.length ∧ (d.slot b).outputs.length ≤ g.batchSize
  filling : ∀ b, (d.slot b).state = .filling → (d.slot b).outputs.length < g.batchSize
  full    : ∀ b, (d.slot b).state = .ready ∨ (d.slot b).state = .inflight →
    (d.slot b).outputs.length < g.batchSize → (d.slot b).flags.final = true
  window  : d.count .inflight ≤ g.window
  autoAck : g.autoAck = true → d.count .inflight = 0

/-- The window law, with what it rests on: a channel outside a run holds no batch, a drain watch that is on
belongs to a STOPPING channel with no FILLING batch and no entry in the dispatch in flight (R68), and that
dispatch has one entry a channel. -/
structure State.WindowLaw (s : State) : Prop where
  delivery : s.DeliveryLaw
  fits     : ∀ c, (s.deliv c).Fits (s.chan c).config
  ranges   : ∀ c, 1 ≤ (s.chan c).config.batchSize ∧ 1 ≤ (s.chan c).config.window
  empty    : ∀ c, (s.chan c).state.inRun = false → (s.deliv c).count .free = 4
  drain    : ∀ c, (s.deliv c).drainWatch = true →
    (s.chan c).state = .stopping ∧ (s.deliv c).count .filling = 0 ∧
      ∀ e, s.inSnapshot e → e.channel ≠ c
  entries  : ∀ d, s.engine.dispatch = some d → (d.snapshot.map (·.channel)).Nodup

end Sys2Proof.Machine
end

