-- ==== Sys2Proof/WellFormed.lean ====
section
/-! DEFINITION. Which commands are well formed: what the link's framing and the arithmetic's own ranges
already guarantee of an operand before any block judges it. -/

namespace Sys2Proof

/-- The payload of a frame: LEN is at most 250 and counts TYPE and TAG too (R129, section 9.1). -/
def payloadFits (payload : List Byte) : Bool := payload.length ≤ 248

/-- A frame that goes to the inbound queue and names no host command (R134, R136). -/
def isBadType (type : Byte) : Bool := (Command.ofCode type).isNone && type != FrameType.ack

/-- Well-formed commands. A history read is x[n-k] with k of 1 or more: the dispatch's own sample carries no
parity mark (R77). -/
def Instr.wf : Instr → Bool
  | .powerReset _ => true
  | .pinReset _ => true
  | .linkReset => true
  | .gapTimerExpiry => true
  | .byteArrival _ => true
  | .byteFramingError => true
  | .wordArrival _ _ _ => true
  | .dispatchStart => true
  | .damageMarking _ _ => true
  | .dispatchCompletion choice => choice.badHistory.all (fun p => p.2 != 0)
  | .ackTimerExpiry _ _ => true
  | .transmissionStart => true
  | .sendCompletion => true
  | .ping _ payload => payloadFits payload
  | .deviceReset _ payload => payloadFits payload
  | .linkSet _ payload => payloadFits payload
  | .deviceQuery _ payload => payloadFits payload
  | .bankOpen _ payload => payloadFits payload
  | .bankData _ payload => payloadFits payload
  | .bankSeal _ payload _ => payloadFits payload
  | .bankFree _ payload => payloadFits payload
  | .bankQuery _ payload => payloadFits payload
  | .laneSet _ payload => payloadFits payload
  | .laneQuery _ payload => payloadFits payload
  | .chanConfig _ payload => payloadFits payload
  | .chanBind _ payload => payloadFits payload
  | .chanStart _ payload => payloadFits payload
  | .chanStop _ payload => payloadFits payload
  | .chanAbort _ payload => payloadFits payload
  | .chanClear _ payload => payloadFits payload
  | .chanSwap _ payload => payloadFits payload
  | .chanQuery _ payload => payloadFits payload
  | .chanRotate _ payload => payloadFits payload
  | .watchSet _ payload => payloadFits payload
  | .watchOff _ payload => payloadFits payload
  | .watchQuery _ payload => payloadFits payload
  | .badType type _ payload => isBadType type && payloadFits payload
  | .hrxChangesToSpace => true
  | .hrxChangesToMark => true

end Sys2Proof
end

