-- ==== Sys2Proof/Certificates/Slice0/Obligations.lean ====
section
/-! DEFINITION. The statements for the provers. Most give the next state of a command whole, as an equation
whose right side names every field that changes, so that each is its own frame. -/

open Sys2Proof Sys2Proof.Machine

/-! ## The step and the taking of commands -/

/-- A step takes the command at the front of the queue and runs it on the rest. On an empty queue, and with no
watch stop request waiting, the block idles, which is the model's choice (log entry 3); a request that waits is
taken then, as `StopClosesTheBatchBeingFilled` says (log entry 12). -/
def Obligations.StepTakesTheFrontCommand : Prop :=
  (∀ (s : State) (c : Instr) (rest : List Instr), s.pending = c :: rest →
    step s = exec c { s with pending := rest }) ∧
  ∀ s : State, s.pending = [] → s.stopRequests = [] → step s = .next s

/-- No command stops the block, and none touches the commands that wait (the model's choice of outcomes, log
entry 19). -/
def Obligations.EveryCommandAnswersANextState : Prop :=
  ∀ (i : Instr) (s : State), ∃ t, exec i s = .next t ∧ t.pending = s.pending

/-- A command that cannot occur in a state leaves it as it is (the model's choice, log entry 1). The return of
HRX to mark is stated for every state in `HrxLevelAndReceiverErrors`. -/
def Obligations.CommandsThatCannotOccurChangeNothing : Prop :=
  ∀ (i : Instr) (s : State), i ≠ .hrxChangesToMark → occurs s i = false → exec i s = .next s

/-- Each taking removes the head frame and queues one reply that echoes its tag and type and carries
rx_discards, which becomes 0; the body has the length of section 9.4, and none when the length is refused. -/
def Obligations.EachTakingQueuesOneReply : Prop :=
  ∀ (i : Instr) (f : Frame) (s : State), i.wf = true → takenFrame i = some f → s.Takes f → s.PageLaw →
    ∃ (t : State) (status : Status) (body : List Byte), exec i s = .next t ∧
      t.link.inbound = s.link.inbound.tail ∧
      t.link.replies = s.link.replies ++ [⟨f.tag, f.type, status, body, s.link.rxDiscards⟩] ∧
      t.link.rxDiscards = 0 ∧
      match Command.ofCode f.type with
      | none => status = .badType ∧ body = []
      | some c =>
        if lengthOk c f.payload.length then
          status ≠ .badType ∧ status ≠ .badLength ∧ body.length = bodyLength c f.payload
        else status = .badLength ∧ body = []

/-- A command refused with any status but CHECK_FAIL changes nothing but the queues of its frame and its
reply. -/
def Obligations.RefusedCommandsChangeNothingElse : Prop :=
  ∀ (i : Instr) (f : Frame) (s : State), i.wf = true → takenFrame i = some f → s.Takes f →
    ∃ (t : State) (status : Status) (body : List Byte), exec i s = .next t ∧
      t.link.replies = s.link.replies ++ [⟨f.tag, f.type, status, body, s.link.rxDiscards⟩] ∧
      (status = .ok ∨ status = .accepted ∨ status = .checkFail ∨
        t = s.answered f.tag f.type status body)

/-- The three checks before an owner: an unknown type, a length that the type does not allow, and a nonzero
reserved byte or bit, with the reserved bytes and bits that the payload table gives each command. -/
def Obligations.MalformedCommandsAreRefused : Prop :=
  (∀ (type tag : Byte) (p : List Byte) (s : State), Command.ofCode type = none →
    s.Takes ⟨type, tag, p⟩ →
    exec (.badType type tag p) s = .next (s.answered tag type .badType [])) ∧
  (∀ (i : Instr) (c : Command) (tag : Byte) (p : List Byte) (s : State), i.wf = true →
    takenFrame i = some ⟨c.code, tag, p⟩ → s.Takes ⟨c.code, tag, p⟩ → lengthOk c p.length = false →
    exec i s = .next (s.answered tag c.code .badLength [])) ∧
  (∀ (i : Instr) (c : Command) (tag : Byte) (p : List Byte) (s : State), i.wf = true →
    takenFrame i = some ⟨c.code, tag, p⟩ → s.Takes ⟨c.code, tag, p⟩ → lengthOk c p.length = true →
    reservedOk c p = false →
    exec i s = .next (s.answered tag c.code .badArg (refusalBody c))) ∧
  (∀ p, ∀ c ∈ [Command.ping, .linkSet, .chanConfig, .chanBind, .chanSwap, .chanRotate, .watchSet],
    reservedOk c p = true) ∧
  ∀ (p : List Byte) (a b : Byte), p.take 2 = [a, b] →
    (reservedOk .deviceReset p = true ↔ a = 0 ∧ b = 0) ∧
    (reservedOk .deviceQuery p = true ↔ a = 0 ∧ (b = 0 ∨ b = 1)) ∧
    (∀ c ∈ [Command.bankOpen, .bankData, .bankSeal, .bankFree, .chanStart, .chanStop, .chanAbort, .chanClear,
      .watchOff], reservedOk c p = true ↔ b = 0) ∧
    (∀ c ∈ [Command.bankQuery, .laneQuery, .chanQuery, .watchQuery],
      reservedOk c p = true ↔ b = 0 ∨ b = 1) ∧
    ∀ m r : Byte, p = [a, b, m, r] → (reservedOk .laneSet p = true ↔ r = 0)

/-- The TYPE codes of the host commands and the payload lengths that each allows; the CRC-16; the order of the
bytes of a field; the codes of the enumerated fields, and the layouts of the flags bytes, the operation slot and
the notices. -/
def Obligations.TypeCodesAndLengthsFollowTheTable : Prop :=
  (Command.all.map Command.code =
    [0x01, 0x02, 0x03, 0x04, 0x10, 0x11, 0x12, 0x13, 0x14, 0x20, 0x21, 0x30, 0x31, 0x32, 0x33, 0x34, 0x35,
     0x36, 0x37, 0x38, 0x40, 0x41, 0x42] ∧
  (∀ c : Command, c ∈ Command.all ∧ Command.ofCode c.code = some c) ∧
  (∀ b : Byte, Command.ofCode b = none ↔ ∀ c : Command, c.code ≠ b) ∧
  (∀ n, lengthOk .ping n = true ↔ n ≤ 16) ∧
  (∀ n, lengthOk .bankData n = true ↔ ∃ k, 1 ≤ k ∧ k ≤ 32 ∧ n = 4 + 2 * k) ∧
  (∀ n, ∀ c ∈ [Command.bankOpen, .bankSeal, .laneSet], lengthOk c n = true ↔ n = 4) ∧
  (∀ n, ∀ c ∈ [Command.chanConfig, .watchSet], lengthOk c n = true ↔ n = 14) ∧
  ∀ n, ∀ c ∈ [Command.deviceReset, .linkSet, .deviceQuery, .bankFree, .bankQuery, .laneQuery, .chanBind,
    .chanStart, .chanStop, .chanAbort, .chanClear, .chanSwap, .chanQuery, .chanRotate, .watchOff,
    .watchQuery], lengthOk c n = true ↔ n = 2) ∧
  (let shift (r : Half) : Half := if r.msb then (r <<< 1) ^^^ 0x1021 else r <<< 1
   crc16 [] = 0xFFFF ∧
   (∀ (bs : List Byte) (b : Byte),
     crc16 (bs ++ [b]) = Nat.repeat shift 8 (crc16 bs ^^^ (b ++ (0 : Byte) : Half))) ∧
   crc16 [0x31, 0x32, 0x33, 0x34, 0x35, 0x36, 0x37, 0x38, 0x39] = 0x29B1) ∧
  (∀ a b c d : Byte, halfBytes (b ++ a) = [a, b] ∧ outputBytes (c ++ b ++ a) = [a, b, c] ∧
    wordBytes (d ++ c ++ b ++ a) = [a, b, c, d]) ∧
  (∀ n, n < 256 → (natByte n).toNat = n) ∧
  (∀ n, n < 65536 → natBytes n = [natByte (n % 256), natByte (n / 256)]) ∧
  ([Status.ok, .accepted, .badType, .badLength, .badArg, .wrongState, .busy, .noSpace, .inUse, .sequence,
      .incomplete, .checkFail].map Status.code = [0, 1, 2, 3, 4, 5, 6, 7, 8, 9, 10, 11] ∧
    [DoneStatus.ok, .cancelled, .aborted, .faulted].map DoneStatus.code = [0, 1, 2, 3] ∧
    [Operation.stop, .swap].map Operation.code = [0, 1] ∧
    [ChanState.idle, .ready, .running, .stopping, .faulted].map ChanState.code = [0, 1, 2, 3, 4] ∧
    [none, some StopCause.command, some .watch].map stopCauseCode = [0, 1, 2] ∧
    [BankState.free, .opened, .sealed, .damaged].map BankState.code = [0, 1, 2, 3] ∧
    [LaneState.off, .hunt, .check, .locked].map LaneState.code = [0, 1, 2, 3] ∧
    [WatchState.off, .clear, .tripped].map WatchState.code = [0, 1, 2] ∧
    [WatchKind.above, .below, .outside, .inside].map WatchKind.code = [0, 1, 2, 3] ∧
    [WatchAction.notify, .notifyStop].map WatchAction.code = [0, 1] ∧
    [RangePolicy.sat, .wrap].map RangePolicy.code = [0, 1] ∧
    [ResetCause.power, .pin, .command, .link].map ResetCause.code = [0, 1, 2, 3] ∧
    [LostCause.earlyMarker, .missingMarker].map LostCause.code = [0, 1] ∧
    [false, true].map boolByte = [0, 1]) ∧
  (FaultCause.history.code = 0xFF ∧ bankByte none = 0xFF ∧
    ∀ b : BankId, (FaultCause.bank b).code = natByte b.val ∧ bankByte (some b) = natByte b.val) ∧
  (OpSlot.none.report = [0, 0, 0, 0] ∧
    ∀ (op : Operation) (tag : Byte) (status : DoneStatus),
      (OpSlot.pending op tag).report = [1, op.code, tag, 0] ∧
      (OpSlot.unreported op tag status).report = [2, op.code, tag, status.code]) ∧
  (∀ (f : BatchFlags) (resend : Bool), (List.range 8).map (f.byte resend).getLsbD =
    [f.final, f.gap, f.settling, f.guard, f.clip, resend, false, false]) ∧
  (∀ f : Flags, (List.range 8).map f.byte.getLsbD =
    [f.gap, f.settling, f.guard, f.clip, false, false, false, false]) ∧
  (∀ (set : List SlotId) (p : SlotId), (slotsByte set).getLsbD p.val = set.contains p) ∧
  ∀ (l : LaneId) (lost : LostCause) (w : WatchId) (c : ChanId) (index : OutIndex) (v : Output) (q : Byte)
    (n : BitVec 32) (cause : FaultCause),
    let shape (x : Notice) (code : Byte) (arguments : List Byte) : Prop :=
      x.code = code ∧ x.arguments = arguments ++ List.replicate (9 - arguments.length) 0
    shape (.laneLocked l) 1 [natByte l.val] ∧ shape (.laneLost l lost) 2 [natByte l.val, lost.code] ∧
    shape (.laneOverrun l) 3 [natByte l.val] ∧
    shape (.watchTrip w c index v) 4
      ([natByte w.val, natByte c.val] ++ wordBytes index ++ outputBytes v) ∧
    shape (.watchClear w c index v) 5
      ([natByte w.val, natByte c.val] ++ wordBytes index ++ outputBytes v) ∧
    shape (.deliveryLost c q n) 6 ([natByte c.val, q] ++ wordBytes n) ∧
    shape (.staleAck c q) 7 [natByte c.val, q] ∧
    shape (.memoryFault c cause) 8 [natByte c.val, cause.code] ∧
    shape (.channelStopped c) 9 [natByte c.val, 2]

/-- The saturating counters, and the notice queue: a notice raised goes to the tail while fewer than 16 wait,
and is dropped and counted in the missed count otherwise; several are raised one by one. -/
def Obligations.CountersSaturate : Prop :=
  (∀ x : Half, (inc16 x).toNat = min 65535 (x.toNat + 1)) ∧
  (∀ (x : Byte) (n : Nat), (add8 x n).toNat = min 255 (x.toNat + n)) ∧
  (∀ (s : State) (n : Notice),
    (s.arbiter.notices.length < 16 → s.raise n =
      { s with arbiter := { s.arbiter with notices := s.arbiter.notices ++ [n] } }) ∧
    (16 ≤ s.arbiter.notices.length → s.raise n =
      { s with arbiter := { s.arbiter with
        missed := if s.arbiter.missed = 255 then 255 else s.arbiter.missed + 1 } })) ∧
  (∀ s : State, s.raiseAll [] = s) ∧
  ∀ (s : State) (n : Notice) (ns : List Notice), s.raiseAll (n :: ns) = (s.raise n).raiseAll ns

/-! ## Device commands -/

/-- PING. -/
def Obligations.PingAnswersItsPayload : Prop :=
  ∀ (s : State) (tag : Byte) (p : List Byte), s.Takes ⟨0x01, tag, p⟩ → p.length ≤ 16 →
    exec (.ping tag p) s = .next (s.answered tag 0x01 .ok p)

/-- LINK_SET at its taking: the values go into the reply, and those in force stay. -/
def Obligations.LinkSetAnswersItsValues : Prop :=
  ∀ (s : State) (tag rate gap : Byte), s.Takes ⟨0x03, tag, [rate, gap]⟩ →
    exec (.linkSet tag [rate, gap]) s = .next
      (if rate.toNat ≤ 5 ∧ 1 ≤ gap.toNat ∧ gap.toNat ≤ 50 then s.answered tag 0x03 .ok [rate, gap]
       else s.answered tag 0x03 .badArg [0, 0])

/-- DEVICE_QUERY reports the link, and clears its five counters when the clear flag is set. -/
def Obligations.DeviceQueryReportsTheLink : Prop :=
  ∀ (s : State) (tag flag : Byte), s.Takes ⟨0x04, tag, [0, flag]⟩ → flag = 0 ∨ flag = 1 →
    exec (.deviceQuery tag [0, flag]) s = .next
      ({ s with link := { s.link with
          counters := if flag = 1 then ⟨0, 0, 0, 0, 0⟩ else s.link.counters } }.answered tag 0x04 .ok
        ([s.link.cause.code, natByte s.link.rate.val, natByte s.link.gapTimeout, 0] ++
          halfBytes s.link.counters.crcErrors ++ halfBytes s.link.counters.truncated ++
          halfBytes s.link.counters.framing ++ halfBytes s.link.counters.queueFull ++
          halfBytes s.link.counters.malformedAcks ++ [natByte s.pool.length, s.arbiter.missed]))

/-- DEVICE_RESET becomes pending, no command is taken while it is, and the send completion of its reply
performs it: every block but the link controller returns to its reset values, coefficient memory and the
history rings keep their contents, and the link controller keeps its settings, counters, receiver and break
detector. That the watch stop requests which wait are dropped with the reset is the model's choice (log entry 12),
and so are the zero fields of the FREE slots (log entry 20) and the order of the pool (log entry 18). -/
def Obligations.DeviceResetIsPendingThenPerformed : Prop :=
  (∀ (s : State) (tag : Byte), s.Takes ⟨0x02, tag, [0, 0]⟩ →
    exec (.deviceReset tag [0, 0]) s = .next
      ({ s with link := { s.link with resetPending := true } }.answered tag 0x02 .ok [])) ∧
  (∀ (i : Instr) (f : Frame) (s : State), takenFrame i = some f → s.link.resetPending = true →
    exec i s = .next s) ∧
  ∀ (s : State) (frame : Frame) (r : Reply) (rest : List Reply),
    s.arbiter.transmission = some ⟨.reply, frame⟩ → s.link.replies = r :: rest → r.type = 0x02 →
    r.status = .ok →
    exec .sendCompletion s = .next
      { State.reset with
        link := { s.link with
          inbound := [], replies := [], rxDiscards := 0, assembler := .seek, gapTimer := .stopped,
          resetPending := false, cause := .command, greeting := true }
        coeffMem := s.coeffMem
        engine := { State.reset.engine with rings := s.engine.rings }
        pending := s.pending }

/-! ## The receiver -/

/-- A good byte in SEEK, in LENGTH, and in BODY while the frame is not complete (the first five rows of the
assembler's table). -/
def Obligations.AssemblerFollowsItsTable : Prop :=
  ∀ (s : State) (b : Byte), s.link.receiver = .readyForStart →
    (s.link.assembler = .seek → b = 0xA7 →
      exec (.byteArrival b) s = .next { s with link := { s.link with
        rxChar := none, gapTimer := .running s.link.gapTimeout, assembler := .length } }) ∧
    (s.link.assembler = .seek → b ≠ 0xA7 →
      exec (.byteArrival b) s = .next { s with link := { s.link with rxChar := none } }) ∧
    (s.link.assembler = .length → 2 ≤ b.toNat ∧ b.toNat ≤ 250 →
      exec (.byteArrival b) s = .next { s with link := { s.link with
        rxChar := none, gapTimer := .running s.link.gapTimeout, assembler := .body b [] } }) ∧
    (s.link.assembler = .length → b.toNat < 2 ∨ 250 < b.toNat →
      exec (.byteArrival b) s = .next { s with link := { s.link with
        rxChar := none, gapTimer := .stopped, assembler := .seek, rxDiscards := add8 s.link.rxDiscards 1,
        counters := { s.link.counters with truncated := inc16 s.link.counters.truncated } } }) ∧
    ∀ (len : Byte) (l : List Byte), s.link.assembler = .body len l → l.length + 1 < len.toNat + 2 →
      exec (.byteArrival b) s = .next { s with link := { s.link with
        rxChar := none, gapTimer := .running s.link.gapTimeout, assembler := .body len (l ++ [b]) } }

/-- The last byte of a frame: the CRC check, then the routing of a command frame to the inbound queue, or its
loss when the queue is full, and the refusal of a malformed ACK. -/
def Obligations.CompleteFrameIsCheckedAndRouted : Prop :=
  ∀ (s : State) (b len : Byte) (l : List Byte), s.link.receiver = .readyForStart →
    s.link.assembler = .body len l → l.length + 1 = len.toNat + 2 →
    let received := l ++ [b]
    let content := received.take len.toNat
    let good := crc16 (len :: content) = byteAt received (len.toNat + 1) ++ byteAt received len.toNat
    let f : Frame := ⟨byteAt content 0, byteAt content 1, content.drop 2⟩
    let k : Link := { s.link with rxChar := none, gapTimer := .stopped, assembler := .seek }
    (¬ good →
      exec (.byteArrival b) s = .next { s with link := { k with
        rxDiscards := add8 k.rxDiscards 1
        counters := { k.counters with crcErrors := inc16 k.counters.crcErrors } } }) ∧
    (good → f.type ≠ 0x50 → s.link.inbound.length < 4 →
      exec (.byteArrival b) s = .next { s with link := { k with inbound := k.inbound ++ [f] } }) ∧
    (good → f.type ≠ 0x50 → 4 ≤ s.link.inbound.length →
      exec (.byteArrival b) s = .next { s with link := { k with
        rxDiscards := add8 k.rxDiscards 1
        counters := { k.counters with queueFull := inc16 k.counters.queueFull } } }) ∧
    (good → f.type = 0x50 →
      f.payload.length ≠ 4 ∨ 16 ≤ (byteAt f.payload 0).toNat ∨ byteAt f.payload 2 ≠ 0 ∨
        byteAt f.payload 3 ≠ 0 →
      exec (.byteArrival b) s = .next { s with link := { k with
        counters := { k.counters with malformedAcks := inc16 k.counters.malformedAcks } } })

/-- The last byte of a well-formed ACK frame for channel `c` and sequence `q`. Without an INFLIGHT batch of
that sequence only STALE_ACK is raised; else that batch and those before it in the in-flight order are freed,
and a drain watch that finds no batch left ends the stop. -/
def Obligations.AckFreesTheBatchAndThoseBefore : Prop :=
  ∀ (s : State) (b len : Byte) (l : List Byte) (tag q : Byte) (c : ChanId),
    s.link.receiver = .readyForStart → s.link.assembler = .body len l → l.length + 1 = len.toNat + 2 →
    let received := l ++ [b]
    crc16 (len :: received.take len.toNat) =
      byteAt received (len.toNat + 1) ++ byteAt received len.toNat →
    received.take len.toNat = [0x50, tag, natByte c.val, q, 0, 0] →
    let k : Link := { s.link with rxChar := none, gapTimer := .stopped, assembler := .seek }
    ((∀ x ∈ (s.deliv c).inflightOrder,
        ¬ (((s.deliv c).slot x).state = .inflight ∧ ((s.deliv c).slot x).sequence = q)) →
      exec (.byteArrival b) s = .next ({ s with link := k }.raise (.staleAck c q))) ∧
    ∀ (before after : List BatchId) (x : BatchId), (s.deliv c).inflightOrder = before ++ x :: after →
      ((s.deliv c).slot x).state = .inflight → ((s.deliv c).slot x).sequence = q →
      (∀ y ∈ before,
        ¬ (((s.deliv c).slot y).state = .inflight ∧ ((s.deliv c).slot y).sequence = q)) →
      ∃ t, exec (.byteArrival b) s = .next t ∧ t.link = k ∧
        (∀ y, (t.deliv c).slot y = if y ∈ before ++ [x] then .free else (s.deliv c).slot y) ∧
        (t.deliv c).inflightOrder = after ∧ (t.deliv c).readyOrder = (s.deliv c).readyOrder ∧
        (t.deliv c).seqCounter = (s.deliv c).seqCounter ∧
        (t.deliv c).pendingLost = (s.deliv c).pendingLost ∧
        t.resend = s.resend.filter (fun e => !(e.1 == c && (before ++ [x]).contains e.2)) ∧
        (∀ d, d ≠ c → t.deliv d = s.deliv d ∧ t.chan d = s.chan d) ∧
        t.coeffMem = s.coeffMem ∧ t.pool = s.pool ∧ t.banks = s.banks ∧ t.lanes = s.lanes ∧
        t.engine = s.engine ∧ t.watches = s.watches ∧
        let drained := (s.deliv c).drainWatch = true ∧ (∀ y, ((t.deliv c).slot y).state ≠ .ready) ∧
          ∀ y, ((t.deliv c).slot y).state ≠ .inflight
        (¬ drained → (t.deliv c).drainWatch = (s.deliv c).drainWatch ∧ t.channels = s.channels ∧
          t.arbiter = s.arbiter) ∧
        (drained → (t.deliv c).drainWatch = false ∧
          ((s.chan c).state = .stopping → (s.chan c).stopCause = some .command →
            t.chan c = { s.chan c with
              state := .ready, stopCause := none, opSlot := (s.chan c).opSlot.finishOp .stop .ok } ∧
            t.arbiter = s.arbiter) ∧
          ((s.chan c).state = .stopping → (s.chan c).stopCause = some .watch →
            t.chan c = { s.chan c with state := .ready, stopCause := none } ∧
            t.arbiter = (s.raise (.channelStopped c)).arbiter))

/-- HRX going to space starts the break detector's space timer, and a character at a receiver that is ready and
samples none; HRX returning to mark ends SPACE or BREAK and makes a receiver that waits for mark ready again; a
framing error and a gap timer expiry end a frame in assembly. The field of the character being sampled is the
model's (log entry 14). -/
def Obligations.HrxLevelAndReceiverErrors : Prop :=
  (∀ s : State, s.link.detector = .idle →
    exec .hrxChangesToSpace s = .next { s with link := { s.link with
      detector := .space
      rxChar := if s.link.receiver = .readyForStart ∧ s.link.rxChar = none then some []
        else s.link.rxChar } }) ∧
  (∀ s : State, exec .hrxChangesToMark s =
    .next { s with link := { s.link with detector := .idle, receiver := .readyForStart } }) ∧
  (∀ s : State, s.link.receiver = .readyForStart → s.link.assembler = .seek →
    exec .byteFramingError s = .next { s with link := { s.link with
      counters := { s.link.counters with framing := inc16 s.link.counters.framing }
      receiver := .waitMark, rxChar := none } }) ∧
  (∀ s : State, s.link.receiver = .readyForStart → s.link.assembler ≠ .seek →
    exec .byteFramingError s = .next { s with link := { s.link with
      counters := { s.link.counters with framing := inc16 s.link.counters.framing }
      receiver := .waitMark, rxChar := none, assembler := .seek, gapTimer := .stopped
      rxDiscards := add8 s.link.rxDiscards 1 } }) ∧
  ∀ (s : State) (ms : Nat), s.link.gapTimer = .running ms →
    exec .gapTimerExpiry s = .next { s with link := { s.link with
      assembler := .seek, gapTimer := .stopped, rxDiscards := add8 s.link.rxDiscards 1
      counters := { s.link.counters with truncated := inc16 s.link.counters.truncated } } }

/-- Frames are encoded and assembled alike: the bytes of a frame of any type but ACK, arriving one after
another at an assembler in SEEK, put exactly that frame at the tail of an inbound queue that has room, and
change nothing else. -/
def Obligations.FrameBytesBecomeOneQueuedFrame : Prop :=
  ∀ (s : State) (f : Frame), s.link.receiver = .readyForStart → s.link.assembler = .seek →
    f.payload.length ≤ 248 → f.type ≠ 0x50 → s.link.inbound.length < 4 →
    Sys2Proof.core.run f.bytes.length { s with pending := f.bytes.map .byteArrival } = .next
      { s with
        link := { s.link with
          rxChar := none, gapTimer := .stopped, inbound := s.link.inbound ++ [f] }
        pending := [] }

/-- Bits on the wires spell commands. A change of HRX from mark to space begins a character at a ready receiver,
and its ten levels spell the arrival of its byte, or a framing error where the stop bit is at space; a line
that is at space already begins none. Sixteen bits on a lane in CHECK or LOCKED spell the arrival of their
word, which carries the marker level of the first alone. In HUNT a marker that is high after being low, or at
the first bit, cuts a new word at that bit. Where these bits are kept is the model's choice (log entry 14). -/
def Obligations.WireBitsSpellCommands : Prop :=
  (∀ (s : State) (b : Byte) (stop : Bool), s.link.receiver = .readyForStart → s.link.rxChar = none →
    s.link.detector = .idle →
    (false :: (List.range 8).map b.getLsbD ++ [stop]).foldl State.hrxBit s = { s with
      link := { s.link with
        rxChar := some ((List.range 8).map b.getLsbD), detector := if stop then .idle else .space }
      pending := (if stop then .byteArrival b else .byteFramingError) :: s.pending }) ∧
  (∀ s : State, s.link.receiver = .waitMark ∨ s.link.rxChar = none →
    (s.link.detector ≠ .idle → s.hrxBit false = s) ∧
    s.hrxBit true = { s with link := { s.link with detector := .idle, receiver := .readyForStart } }) ∧
  (∀ (s : State) (l : LaneId) (w : Sample) (marker : Nat → Bool), (s.lane l).state = .check ∨
      (s.lane l).state = .locked → (s.lane l).partialWord.bits = [] →
    (List.range 16).foldl (fun s i => s.laneBit l (w.getMsbD i) (marker i)) s = { s with
      lanes := s.lanes.set l.val { s.lane l with
        partialWord := ⟨(List.range 16).map w.getMsbD, marker 0, none⟩ }
      pending := .wordArrival l w (marker 0) :: s.pending }) ∧
  (∀ (s : State) (l : LaneId) (data marker : Bool), (s.lane l).state = .hunt →
    let k := (s.lane l).partialWord
    let cuts := marker = true ∧ k.lastMarker ≠ some true ∧ (k.bits = [] ∨ k.marker = false)
    let holds (k : PartialWord) : State :=
      { s with lanes := s.lanes.set l.val { s.lane l with partialWord := k } }
    (cuts → s.laneBit l data marker = holds ⟨[data], true, some true⟩) ∧
    (¬ cuts → k.bits = [] → s.laneBit l data marker = holds ⟨[data], marker, some marker⟩) ∧
    (¬ cuts → k.bits ≠ [] → k.bits.length < 15 →
      s.laneBit l data marker = holds ⟨k.bits ++ [data], k.marker, some marker⟩) ∧
    ∀ w : Sample, ¬ cuts → k.bits ++ [data] = (List.range 16).map w.getMsbD →
      s.laneBit l data marker = { holds ⟨k.bits ++ [data], k.marker, some marker⟩ with
        pending := .wordArrival l w k.marker :: s.pending }) ∧
  (∀ (s : State) (l : LaneId) (w : Sample) (marker : Nat → Bool), (s.lane l).state = .hunt →
    (s.lane l).partialWord.lastMarker ≠ some true →
    (s.lane l).partialWord.bits = [] ∨ (s.lane l).partialWord.marker = false → marker 0 = true →
    (List.range 16).foldl (fun s i => s.laneBit l (w.getMsbD i) (marker i)) s = { s with
      lanes := s.lanes.set l.val { s.lane l with
        partialWord := ⟨(List.range 16).map w.getMsbD, true, some (marker 15)⟩ }
      pending := .wordArrival l w true :: s.pending }) ∧
  ∀ (s : State) (l : LaneId) (data marker : Bool), (s.lane l).state = .off → s.laneBit l data marker = s

/-! ## The lanes -/

/-- The word in HUNT. -/
def Obligations.HuntWaitsForTheMarker : Prop :=
  ∀ (s : State) (l : LaneId) (w : Sample) (marker : Bool), (s.lane l).state = .hunt →
    exec (.wordArrival l w marker) s = .next { s with lanes := s.lanes.set l.val { s.lane l with
      received := inc16 (s.lane l).received
      state := if marker then .check else .hunt
      position := if marker then 1 else 0
      partialWord := if marker then ⟨[], false, none⟩
        else { (s.lane l).partialWord with bits := [], marker := false } } }

/-- The word in CHECK at position `p`: the three cases without a lock, and the entry into LOCKED, which raises
LANE_LOCKED first and then offers the word to admission as slot 0. -/
def Obligations.CheckCountsToTheNextMarker : Prop :=
  ∀ (s : State) (l : LaneId) (w : Sample), (s.lane l).state = .check →
    let r : Lane := { s.lane l with
      received := inc16 (s.lane l).received
      partialWord := { (s.lane l).partialWord with bits := [], marker := false } }
    (r.position < r.slotCount →
      exec (.wordArrival l w false) s =
        .next { s with lanes := s.lanes.set l.val { r with position := r.position + 1 } }) ∧
    (r.position < r.slotCount →
      exec (.wordArrival l w true) s =
        .next { s with lanes := s.lanes.set l.val { r with
          position := 1, partialWord := ⟨[], false, none⟩ } }) ∧
    (r.position = r.slotCount →
      exec (.wordArrival l w false) s =
        .next { s with lanes := s.lanes.set l.val { r with
          state := .hunt, position := 0, partialWord := ⟨[], false, none⟩ } }) ∧
    (r.position = r.slotCount →
      let a := { r with state := .locked, position := 1 % r.slotCount }.offer (s.needed l) l 0 w
      exec (.wordArrival l w true) s =
        .next (({ s with lanes := s.lanes.set l.val a.1 }.raise (.laneLocked l)).raiseAll a.2))

/-- A word that keeps its place in LOCKED is the word of the slot at the position, and admission decides on
it: not needed by a RUNNING channel, it is discarded; needed with room, it enters the FIFO with its slot's gap
mark; needed without room, it is dropped as an overrun, with one notice an episode. That the gap-pending set is
kept as a list in ascending order is the model's choice (log entry 18). -/
def Obligations.LockedWordsAreNumberedAndAdmitted : Prop :=
  ∀ (s : State) (l : LaneId) (w : Sample) (p : SlotId), (s.lane l).state = .locked →
    (s.lane l).position = p.val →
    let needed := ∃ c, (s.chan c).state = .running ∧ (s.chan c).config.lane = l ∧
      (s.chan c).config.slot = p
    let r : Lane := { s.lane l with
      received := inc16 (s.lane l).received
      position := (p.val + 1) % (s.lane l).slotCount
      partialWord := { (s.lane l).partialWord with bits := [], marker := false } }
    (¬ needed →
      exec (.wordArrival l w (decide (p = 0))) s = .next { s with lanes := s.lanes.set l.val r }) ∧
    (needed → r.fifo.length < 32 →
      exec (.wordArrival l w (decide (p = 0))) s = .next { s with lanes := s.lanes.set l.val { r with
        fifo := r.fifo ++ [⟨p, w, r.gapPending.contains p⟩]
        gapPending := r.gapPending.filter (· != p) } }) ∧
    (needed → 32 ≤ r.fifo.length →
      let dropped : State := { s with lanes := s.lanes.set l.val { r with
        overruns := inc16 r.overruns, gapPending := insertAsc p r.gapPending, latch := true } }
      exec (.wordArrival l w (decide (p = 0))) s =
        .next (if r.latch then dropped else dropped.raise (.laneOverrun l)))

/-- A misframe. That the gap-pending set, which the manual calls a set, is kept as an ascending list is the
model's choice (log entry 18). -/
def Obligations.MisframeLosesTheLane : Prop :=
  ∀ (s : State) (l : LaneId) (w : Sample) (marker : Bool), (s.lane l).state = .locked →
    marker ≠ decide ((s.lane l).position = 0) →
    ∃ (g : List SlotId),
      (∀ p : SlotId, p ∈ g ↔ p.val < (s.lane l).slotCount ∨ p ∈ (s.lane l).gapPending) ∧
      ((s.lane l).gapPending.Pairwise (· < ·) → g.Pairwise (· < ·)) ∧
      exec (.wordArrival l w marker) s = .next
        ({ s with lanes := s.lanes.set l.val { s.lane l with
            received := inc16 (s.lane l).received
            misframes := inc16 (s.lane l).misframes
            gapPending := g
            state := if marker then .check else .hunt
            position := if marker then 1 else 0
            partialWord := ⟨[], false, none⟩ } }.raise
          (.laneLost l (if marker then .earlyMarker else .missingMarker)))

/-- LANE_SET with its refusals in their order, and LANE_QUERY. -/
def Obligations.LaneCommandsSetAndReport : Prop :=
  (∀ (s : State) (tag n enable m : Byte), s.Takes ⟨0x20, tag, [n, enable, m, 0]⟩ → 4 ≤ n.toNat →
    exec (.laneSet tag [n, enable, m, 0]) s = .next (s.answered tag 0x20 .badArg [])) ∧
  (∀ (s : State) (tag enable m : Byte) (l : LaneId),
    s.Takes ⟨0x20, tag, [natByte l.val, enable, m, 0]⟩ →
    let busy := ∃ c, (s.chan c).config.lane = l ∧
      ((s.chan c).state = .running ∨ (s.chan c).state = .stopping)
    (busy → exec (.laneSet tag [natByte l.val, enable, m, 0]) s =
      .next (s.answered tag 0x20 .wrongState [])) ∧
    (¬ busy → 2 ≤ enable.toNat ∨ m.toNat = 0 ∨ 8 < m.toNat →
      exec (.laneSet tag [natByte l.val, enable, m, 0]) s = .next (s.answered tag 0x20 .badArg [])) ∧
    (¬ busy → enable.toNat < 2 → 1 ≤ m.toNat → m.toNat ≤ 8 →
      exec (.laneSet tag [natByte l.val, enable, m, 0]) s = .next
        ({ s with lanes := s.lanes.set l.val { s.lane l with
            state := if enable = 1 then .hunt else .off
            slotCount := m.toNat, position := 0, fifo := [], gapPending := [], latch := false
            partialWord := ⟨[], false, none⟩ } }.answered tag 0x20 .ok []))) ∧
  (∀ (s : State) (tag n flag : Byte), s.Takes ⟨0x21, tag, [n, flag]⟩ → flag.toNat < 2 → 4 ≤ n.toNat →
    exec (.laneQuery tag [n, flag]) s = .next (s.answered tag 0x21 .badArg (List.replicate 12 0))) ∧
  ∀ (s : State) (tag flag : Byte) (l : LaneId), s.Takes ⟨0x21, tag, [natByte l.val, flag]⟩ →
    flag.toNat < 2 →
    let r := s.lane l
    exec (.laneQuery tag [natByte l.val, flag]) s = .next
      ({ s with lanes := if flag = 1 then
          s.lanes.set l.val { r with received := 0, misframes := 0, overruns := 0 } else s.lanes }.answered
        tag 0x21 .ok
        ([r.state.code, natByte r.position, natByte r.slotCount, natByte r.fifo.length,
          slotsByte r.gapPending, boolByte r.latch] ++ halfBytes r.received ++ halfBytes r.misframes ++
          halfBytes r.overruns))

/-! ## The sum engine -/

/-- DISPATCH_START with the engine idle: the first lane after the last-served one whose FIFO holds an entry
gives up its head, and the snapshot holds the RUNNING channels bound to the lane and the sample's slot, the
output-due ones with their active bank noted and held. -/
def Obligations.DispatchStartTakesTheNextLane : Prop :=
  ∀ (s : State) (i : Fin 4) (x : FifoEntry) (rest : List FifoEntry), s.engine.dispatch = none →
    let l : LaneId := s.engine.lastServed + 1 + i
    (∀ j : Fin 4, j < i → (s.lane (s.engine.lastServed + 1 + j)).fifo = []) →
    (s.lane l).fifo = x :: rest →
    let entry (c : ChanId) : SnapEntry :=
      let due := decide ((s.chan c).phase + 1 = (s.chan c).config.decimation)
      { channel := c, session := (s.chan c).session, due := due
        bank := if due then (s.chan c).active else none
        fault := if due then
            match (s.chan c).active with
            | some b => if (s.bank b).state = .damaged then some (.bank b) else none
            | none => none
          else none
        struck := false, fillAtStart := (s.chan c).fill }
    let es := ((List.finRange 16).filter fun c => (s.chan c).state = .running ∧
      (s.chan c).config.lane = l ∧ (s.chan c).config.slot = x.slot).map entry
    ∃ banks : Vector Bank 32,
      (∀ b : BankId, banks[b.val] =
        { s.bank b with hold := (s.bank b).hold || es.any fun e => e.bank == some b }) ∧
      exec .dispatchStart s = .next { s with
        lanes := s.lanes.set l.val { s.lane l with
          fifo := rest, latch := (s.lane l).latch && !rest.isEmpty }
        banks := banks
        engine := { s.engine with lastServed := l, dispatch := some ⟨l, x, es, []⟩ } }

/-- DAMAGE_MARKING of coefficient `k`, read for channel `c` with every word read before it good: its mark
fails, a SEALED bank becomes DAMAGED at once, and the entry takes the bank as its fault cause. -/
def Obligations.DamageMarkingDamagesTheBankAtOnce : Prop :=
  ∀ (s : State) (c : ChanId) (k : Fin 256) (d : Dispatch) (e : SnapEntry) (b : BankId) (page : PageId),
    s.engine.dispatch = some d → d.snapshot.find? (fun e => e.channel == c) = some e → e.due = true →
    e.fault = none → e.bank = some b →
    k.val < min (s.bank b).taps (min 256 (e.fillAtStart + 1)) →
    (∀ j, j < k.val →
      (s.coeff (s.bank b) j).markGood = true ∧ (s.sampleAt d c j).markGood = true) →
    (s.bank b).pages[k.val / 64]? = some page →
    exec (.damageMarking c k) s = .next { s with
      coeffMem := memWrite s.coeffMem (page.val * 64 + k.val % 64)
        ⟨(memRead s.coeffMem (page.val * 64 + k.val % 64)).value, false⟩
      banks := s.banks.set b.val
        (if (s.bank b).state = .sealed then { s.bank b with state := .damaged } else s.bank b)
      engine := { s.engine with dispatch := some { d with snapshot := d.snapshot.map fun e =>
        if e.channel = c then { e with fault := some (.bank b) } else e } } }

/-- DISPATCH_COMPLETION ends the dispatch and clears its holds. It leaves the link, the lanes, coefficient
memory, the pool, the transmission and the rotation lists alone. It writes nothing for a channel whose entries
all fail the guard; where such a channel is STOPPING, the delivery unit makes the close that the stop left to
this completion (R14; the model's deduction, log entry 13). Its notices enter the queue; where every entry fails
the guard no reference changes, and where no channel is STOPPING then there is no notice. Of the watch stop
requests that wait, those of a channel that it stops are ignored (R90); one that it leaves waiting, of a RUNNING
channel that had none, joins the tail (log entry 12). That the queue takes its notices at the end of the
event is the model's choice (log entry 11). -/
def Obligations.CompletionEndsTheDispatch : Prop :=
  ∀ (s : State) (d : Dispatch) (choice : CompletionChoice), s.engine.dispatch = some d →
    ∃ t ns gone late, exec (.dispatchCompletion choice) s = .next t ∧
      t.engine.dispatch = none ∧ t.engine.lastServed = s.engine.lastServed ∧
      (∀ b, (t.bank b).hold = ((s.bank b).hold && !(d.snapshot.any fun e => e.bank == some b)) ∧
        (t.bank b).taps = (s.bank b).taps ∧ (t.bank b).pages = (s.bank b).pages ∧
        (t.bank b).loaded = (s.bank b).loaded ∧
        ((t.bank b).state = (s.bank b).state ∨
          (s.bank b).state = .sealed ∧ (t.bank b).state = .damaged)) ∧
      t.link = s.link ∧ t.lanes = s.lanes ∧ t.coeffMem = s.coeffMem ∧ t.pool = s.pool ∧
      t.pending = s.pending ∧ t.arbiter = (s.raiseAll ns).arbiter ∧
      t.arbiter.transmission = s.arbiter.transmission ∧ t.arbiter.rotation = s.arbiter.rotation ∧
      t.stopRequests = s.stopRequests.filter (· ∉ gone) ++ late ∧
      (∀ c ∈ gone ++ late, (s.chan c).state = .running ∧
        ∃ e ∈ d.snapshot, e.channel = c ∧ guardPasses s e) ∧
      (∀ c ∈ gone, (t.chan c).state ≠ .running) ∧ late.Nodup ∧ (∀ c ∈ late, c ∉ s.stopRequests) ∧
      ((∀ e ∈ d.snapshot, ¬ guardPasses s e) →
        ((∀ e ∈ d.snapshot, (s.chan e.channel).state ≠ .stopping) → ns = []) ∧
          ∀ b, (t.bank b).refs = (s.bank b).refs) ∧
      ∀ c, (∀ e ∈ d.snapshot, e.channel = c → ¬ guardPasses s e) →
        ((s.chan c).state ≠ .stopping ∨ (∀ e ∈ d.snapshot, e.channel ≠ c) →
          t.chan c = s.chan c ∧ t.deliv c = s.deliv c) ∧
        ((s.chan c).state = .stopping → (∃ e ∈ d.snapshot, e.channel = c) → (d.snapshot.map (·.channel)).Nodup →
          ∃ own, Closes c (s.chan c) (s.deliv c) (t.chan c) (t.deliv c) own ∧ own.Sublist ns ∧
            (d.snapshot.length = 1 → ns = own)) ∧
          (∀ b, (c, b) ∈ t.resend ↔ (c, b) ∈ s.resend) ∧
          (choice.badHistory = [] → t.ring c = s.ring c) ∧
          ∀ w, (s.watch w).channel = c → t.watch w = s.watch w

/-- What a completion writes for an entry that passes the guard and is not output due: the sample is appended
and the phase advances. A RUNNING channel's batches stay; a STOPPING channel's close is made. The notices of
the entry enter the queue in their order; where it is the dispatch's only one, they are all there are. -/
def Obligations.CompletionAppendsTheSample : Prop :=
  ∀ (s : State) (d : Dispatch) (e : SnapEntry) (choice : CompletionChoice), s.engine.dispatch = some d →
    (d.snapshot.map (·.channel)).Nodup → e ∈ d.snapshot → guardPasses s e → e.due = false →
    e.fault = none → (s.chan e.channel).phase + 1 ≠ (s.chan e.channel).config.decimation →
    let c := e.channel
    let ch : Channel := { s.chan c with
      fill := min 256 ((s.chan c).fill + 1)
      phase := (s.chan c).phase + 1
      flags := { (s.chan c).flags with gap := (s.chan c).flags.gap || d.sample.gapMark }
      counters := { (s.chan c).counters with
        gapEvents := if d.sample.gapMark then inc16 (s.chan c).counters.gapEvents
          else (s.chan c).counters.gapEvents } }
    ∃ t ns own, exec (.dispatchCompletion choice) s = .next t ∧
      t.ring c = (⟨d.sample.value, true⟩ :: s.ring c).take 256 ∧
      (∀ b, (c, b) ∈ t.resend ↔ (c, b) ∈ s.resend) ∧
      t.stopRequests.filter (· == c) = s.stopRequests.filter (· == c) ∧
      (∀ w, (s.watch w).channel = c → t.watch w = s.watch w) ∧
      ((s.chan c).state = .running → t.chan c = ch ∧ t.deliv c = s.deliv c ∧ own = []) ∧
      ((s.chan c).state = .stopping → Closes c ch (s.deliv c) (t.chan c) (t.deliv c) own) ∧
      t.arbiter = (s.raiseAll ns).arbiter ∧ own.Sublist ns ∧
      (d.snapshot = [e] → ns = own ∧ ∀ b, (t.bank b).refs = (s.bank b).refs)

/-- What a completion writes for an output-due entry that passes the guard and whose words are all good. The
output of the first `n` terms is scaled and clipped, the flags are set, the output is appended, evaluated by the
channel's watches in ascending number, and counted. Then a staged bank becomes active, and a stop that a watch
asks for makes a RUNNING channel STOPPING: before the swap point for the watches in the operand `stopFirst`, after
it for the others, and neither for those in `stopLate`, whose requests are left waiting (log entry 12). Of those
at most one is kept, and none once the channel is STOPPING, because every other finds it STOPPING and is ignored
(R90). The close of a channel that is STOPPING then follows in the same completion. That the completion is where
the output is computed, over the fill count fixed at the dispatch start, is the model's deduction (log entry 9);
the ring beyond its entries reads as the model chose (log entry 7). -/
def Obligations.CompletionHandsOnTheOutput : Prop :=
  ∀ (s : State) (d : Dispatch) (e : SnapEntry) (b : BankId) (choice : CompletionChoice),
    s.engine.dispatch = some d → (d.snapshot.map (·.channel)).Nodup → e ∈ d.snapshot →
    guardPasses s e → e.due = true → e.bank = some b → e.fault = none →
    (s.chan e.channel).phase + 1 = (s.chan e.channel).config.decimation →
    let c := e.channel
    let old := s.chan c
    let g := old.config
    let n := min (s.bank b).taps (min 256 (e.fillAtStart + 1))
    let x (k : Nat) : StoredWord :=
      if k = 0 then ⟨d.sample.value, true⟩ else (s.ring c).getD (k - 1) Config.unwritten
    (∀ k, k < n → (s.coeff (s.bank b) k).markGood = true ∧ (x k).markGood = true) →
    (∀ k : Fin 256, (c, k) ∈ choice.badHistory → k.val = 0 ∨ n ≤ k.val) →
    let a := (List.range n).foldl (fun a k => addTerm g.policy a
      (term g.fraction (s.coeff (s.bank b) k).value (x k).value)) (0, false)
    let y := clip g.policy (scale g.shift a.1)
    let fill := min 256 (old.fill + 1)
    let u : State := { s with channels := s.channels.set c.val { old with
      fill := fill
      phase := 0
      flags :=
        { gap := old.flags.gap || d.sample.gapMark
          settling := old.flags.settling || decide (fill < (s.bank b).taps)
          guard := old.flags.guard || a.2
          clip := old.flags.clip || y.2 }
      counters := { old.counters with
        gapEvents := if d.sample.gapMark then inc16 old.counters.gapEvents else old.counters.gapEvents
        guardEvents := if a.2 then inc16 old.counters.guardEvents else old.counters.guardEvents
        clipEvents := if y.2 then inc16 old.counters.clipEvents else old.counters.clipEvents } } }
    let v := u.append c old.outIndex y.1
    let w := (List.finRange 8).foldl (Evaluation.step c old.outIndex y.1) ⟨v.1, [], []⟩
    let late := w.stops.filter fun i => i ∈ choice.stopLate
    let now := w.stops.filter fun i => i ∉ choice.stopLate
    let before := ∃ i ∈ now, i ∈ choice.stopFirst
    let after := ∃ i ∈ now, i ∉ choice.stopFirst
    let swap (r : Channel) : Channel := if r.staged.isSome then
      { r with active := r.staged, staged := none, opSlot := r.opSlot.finishOp .swap .ok } else r
    let stop (asked : Prop) [Decidable asked] (r : Channel) : Channel := if asked ∧ r.state = .running then
      { r with state := .stopping, stopCause := some .watch, staged := none
               opSlot := r.opSlot.finishOp .swap .cancelled } else r
    let r : Channel := { v.1.chan c with outIndex := old.outIndex + 1 }
    let ch := stop after (swap (stop before r))
    let released := if before ∧ old.state = .running then old.staged
      else if old.staged.isSome then old.active else none
    ∃ t ns own close, exec (.dispatchCompletion choice) s = .next t ∧
      t.ring c = (⟨d.sample.value, true⟩ :: s.ring c).take 256 ∧
      (∀ b, (c, b) ∈ t.resend ↔ (c, b) ∈ s.resend) ∧
      (old.state = .stopping → t.stopRequests.filter (· == c) = s.stopRequests.filter (· == c)) ∧
      (old.state = .running → t.stopRequests.filter (· == c) =
        if before ∨ after then [] else if late ≠ [] ∧ c ∉ s.stopRequests then [c]
        else s.stopRequests.filter (· == c)) ∧
      (∀ i, (s.watch i).channel = c → t.watch i = w.state.watch i) ∧
      (ch.state = .running → t.chan c = ch ∧ t.deliv c = v.1.deliv c ∧ close = []) ∧
      (ch.state = .stopping → Closes c ch (v.1.deliv c) (t.chan c) (t.deliv c) close) ∧
      own = v.2 ++ w.raised ++ close ∧
      t.arbiter = (s.raiseAll ns).arbiter ∧ own.Sublist ns ∧
      (d.snapshot = [e] → ns = own ∧
        ∀ i, (t.bank i).refs = (s.bank i).refs - if released = some i then 1 else 0)

/-- What a completion does for an entry that passes the guard and has a fault cause, set at the dispatch start
or found at its first bad word (log entry 10): at each k the coefficient is checked first, then the history
entry, which the ring may hold bad already or the operand `badHistory` names (log entry 8). The channel becomes
FAULTED, its batches are discarded, one MEMORY_FAULT is raised, and nothing else of its record is written. A bad
coefficient damages its bank, a bad history entry no bank; the ring keeps its values, and the entries that are
among the terms and that `badHistory` names stay bad. -/
def Obligations.CompletionFaultsTheChannel : Prop :=
  ∀ (s : State) (d : Dispatch) (e : SnapEntry) (cause : FaultCause) (choice : CompletionChoice),
    s.engine.dispatch = some d → (d.snapshot.map (·.channel)).Nodup → e ∈ d.snapshot → guardPasses s e →
    let c := e.channel
    let named (k : Nat) : Prop := ∃ i : Fin 256, (c, i) ∈ choice.badHistory ∧ i.val = k
    let among (k : Nat) (b : BankId) : Prop := e.fault = none ∧ e.due = true ∧ e.bank = some b ∧
      k < min (s.bank b).taps (min 256 (e.fillAtStart + 1))
    let read (k : Nat) : Prop := ∃ b, among k b
    let badEntry (k : Nat) : Prop := 1 ≤ k ∧ k ≤ (s.ring c).length ∧
      (((s.ring c).getD (k - 1) Config.unwritten).markGood = false ∨ named k)
    let found (b : BankId) := ∃ k, among k b ∧
      (∀ j, j < k → (s.coeff (s.bank b) j).markGood = true ∧ ¬ badEntry j) ∧
      (cause = .bank b ∧ (s.coeff (s.bank b) k).markGood = false ∨
        cause = .history ∧ (s.coeff (s.bank b) k).markGood = true ∧ badEntry k)
    e.fault = some cause ∨ (∃ b, found b) →
    ∃ t ns, exec (.dispatchCompletion choice) s = .next t ∧
      t.chan c = { s.chan c with
        state := .faulted, stopCause := none, staged := none
        opSlot := (s.chan c).opSlot.finish .faulted } ∧
      t.deliv c = { s.deliv c with
        slots := Vector.replicate 4 .free, pendingLost := 0, readyOrder := [], inflightOrder := []
        drainWatch := false } ∧
      (∀ b, (c, b) ∉ t.resend) ∧
      t.stopRequests.filter (· == c) = s.stopRequests.filter (· == c) ∧
      (t.ring c).length = (s.ring c).length ∧
      (∀ i w, (s.ring c)[i]? = some w → ∃ good, (t.ring c)[i]? = some ⟨w.value, good⟩ ∧
        (good = false ↔ w.markGood = false ∨ read (i + 1) ∧ named (i + 1))) ∧
      (∀ w, (s.watch w).channel = c → t.watch w = s.watch w) ∧
      (∀ b, found b → cause = .bank b → (s.bank b).state = .sealed → (t.bank b).state = .damaged) ∧
      t.arbiter = (s.raiseAll ns).arbiter ∧ [Notice.memoryFault c cause].Sublist ns ∧
      (d.snapshot = [e] → ns = [.memoryFault c cause] ∧
        ∀ b, (t.bank b).refs = (s.bank b).refs - (if (s.chan c).staged = some b then 1 else 0) ∧
          (e.fault = some cause ∨ cause = .history → (t.bank b).state = (s.bank b).state))

/-- The accumulator takes each term by the range policy, and its final value over good words is the terms added
in the order of k; under WRAP that value is congruent to the exact sum. -/
def Obligations.AccumulatorFollowsTheRangePolicy : Prop :=
  (∀ (policy : RangePolicy) (a t : Int) (guard : Bool),
    (-2 ^ 37 ≤ a + t → a + t ≤ 2 ^ 37 - 1 → addTerm policy (a, guard) t = (a + t, guard)) ∧
    (2 ^ 37 - 1 < a + t → addTerm .sat (a, guard) t = (2 ^ 37 - 1, true)) ∧
    (a + t < -2 ^ 37 → addTerm .sat (a, guard) t = (-2 ^ 37, true)) ∧
    (2 ^ 37 - 1 < a + t → addTerm .wrap (a, guard) t = (a + t - 2 ^ 38, true)) ∧
    (a + t < -2 ^ 37 → addTerm .wrap (a, guard) t = (a + t + 2 ^ 38, true))) ∧
  (∀ (fraction : Bool) (c x : Sample), term fraction c x =
    if fraction then 2 * (c.toInt * x.toInt) else c.toInt * x.toInt) ∧
  ∀ (g : ChanConfig) (c x : Nat → StoredWord) (n : Nat),
    (∀ k, k < n → (c k).markGood = true ∧ (x k).markGood = true) →
    let terms := (List.range n).map fun k => term g.fraction (c k).value (x k).value
    accumulate g c x n 0 (0, false) = .ok (terms.foldl (addTerm g.policy) (0, false)) ∧
    (g.policy = .wrap →
      ((terms.foldl (addTerm .wrap) (0, false)).1 - terms.sum) % 2 ^ 38 = 0)

/-- Scaling rounds to the nearest integer with exact halves upward, and the clip keeps 24 bits. -/
def Obligations.ScalingRoundsAndClips : Prop :=
  (∀ acc : Int, scale 0 acc = acc) ∧
  (∀ (shift : Nat) (acc : Int), 1 ≤ shift →
    2 ^ shift * scale shift acc ≤ acc + 2 ^ (shift - 1) ∧
      acc + 2 ^ (shift - 1) < 2 ^ shift * (scale shift acc + 1)) ∧
  ∀ (policy : RangePolicy) (x : Int),
    (-2 ^ 23 ≤ x → x ≤ 2 ^ 23 - 1 → (clip policy x).1.toInt = x ∧ (clip policy x).2 = false) ∧
    (2 ^ 23 - 1 < x → (clip .sat x).1.toInt = 2 ^ 23 - 1 ∧ (clip policy x).2 = true) ∧
    (x < -2 ^ 23 → (clip .sat x).1.toInt = -2 ^ 23 ∧ (clip policy x).2 = true) ∧
    ((clip .wrap x).1.toInt - x) % 2 ^ 24 = 0

/-! ## The watches -/

/-- The condition of each kind. -/
def Obligations.WatchConditionComparesSigned : Prop :=
  ∀ (w : Watch) (v : Output),
    (w.kind = .above → (w.condition v = true ↔ w.high.toInt < v.toInt)) ∧
    (w.kind = .below → (w.condition v = true ↔ v.toInt < w.low.toInt)) ∧
    (w.kind = .outside → (w.condition v = true ↔ v.toInt < w.low.toInt ∨ w.high.toInt < v.toInt)) ∧
    (w.kind = .inside → (w.condition v = true ↔ w.low.toInt ≤ v.toInt ∧ v.toInt ≤ w.high.toInt))

/-- One evaluation of watch `w`: an output of another channel, or a watch that is OFF, changes nothing; on an
output of its channel, the six rows of the table, the notice of a trip and of a clear, and the stop request of a
trip whose action is NOTIFY_STOP. -/
def Obligations.WatchEvaluationFollowsItsTable : Prop :=
  ∀ (e : Evaluation) (c : ChanId) (index : OutIndex) (v : Output) (w : WatchId),
    let k := e.state.watch w
    let t := e.step c index v w
    (k.channel ≠ c → t = e) ∧ (k.state = .off → t = e) ∧
    (k.channel = c →
    let becomes (st : WatchState) (run : Nat) (raised : List Notice) (stops : List WatchId) :=
      t.state = { e.state with watches := e.state.watches.set w.val { k with state := st, run := run } } ∧
        t.raised = e.raised ++ raised ∧ t.stops = e.stops ++ stops
    (k.state = .clear → k.condition v = true → k.run + 1 < k.hold →
      becomes .clear (k.run + 1) [] []) ∧
    (k.state = .clear → k.condition v = true → k.run + 1 = k.hold →
      becomes .tripped 0 [.watchTrip w c index v] (if k.action = .notifyStop then [w] else [])) ∧
    (k.state = .clear → k.condition v = false → becomes .clear 0 [] []) ∧
    (k.state = .tripped → k.condition v = false → k.run + 1 < k.release →
      becomes .tripped (k.run + 1) [] []) ∧
    (k.state = .tripped → k.condition v = false → k.run + 1 = k.release →
      becomes .clear 0 [.watchClear w c index v] []) ∧
    (k.state = .tripped → k.condition v = true → becomes .tripped 0 [] []))

/-- WATCH_SET arms a watch or refuses a value out of range, WATCH_OFF turns one off, WATCH_QUERY reports one. -/
def Obligations.WatchCommandsSetClearAndReport : Prop :=
  (∀ (s : State) (tag w c kind action hold release : Byte) (low high : BitVec 32),
    let p := [w, c, kind, action] ++ wordBytes low ++ wordBytes high ++ [hold, release]
    s.Takes ⟨0x40, tag, p⟩ →
    let limit (x : BitVec 32) := -2 ^ 23 ≤ x.toInt ∧ x.toInt ≤ 2 ^ 23 - 1
    let accepted := w.toNat < 8 ∧ c.toNat < 16 ∧ kind.toNat < 4 ∧ action.toNat < 2 ∧ limit low ∧
      limit high ∧ (kind = 2 ∨ kind = 3 → low.toInt ≤ high.toInt) ∧ hold ≠ 0 ∧ release ≠ 0
    (¬ accepted → exec (.watchSet tag p) s = .next (s.answered tag 0x40 .badArg [])) ∧
    ∀ (i : WatchId) (x : ChanId) (k : WatchKind) (a : WatchAction), accepted → w = natByte i.val →
      c = natByte x.val → kind = k.code → action = a.code →
      let armed : Watch :=
        { state := .clear, channel := x, kind := k, low := BitVec.ofInt 24 low.toInt
          high := BitVec.ofInt 24 high.toInt, hold := hold.toNat, release := release.toNat
          action := a, run := 0 }
      exec (.watchSet tag p) s =
        .next ({ s with watches := s.watches.set i.val armed }.answered tag 0x40 .ok [])) ∧
  (∀ (s : State) (tag n : Byte), s.Takes ⟨0x41, tag, [n, 0]⟩ → 8 ≤ n.toNat →
    exec (.watchOff tag [n, 0]) s = .next (s.answered tag 0x41 .badArg [])) ∧
  (∀ (s : State) (tag : Byte) (w : WatchId), s.Takes ⟨0x41, tag, [natByte w.val, 0]⟩ →
    exec (.watchOff tag [natByte w.val, 0]) s = .next
      ({ s with watches := s.watches.set w.val { s.watch w with state := .off, run := 0 } }.answered
        tag 0x41 .ok [])) ∧
  (∀ (s : State) (tag n flag : Byte), s.Takes ⟨0x42, tag, [n, flag]⟩ → flag.toNat < 2 → 8 ≤ n.toNat →
    exec (.watchQuery tag [n, flag]) s = .next (s.answered tag 0x42 .badArg (List.replicate 15 0))) ∧
  ∀ (s : State) (tag flag : Byte) (w : WatchId), s.Takes ⟨0x42, tag, [natByte w.val, flag]⟩ →
    flag.toNat < 2 →
    let k := s.watch w
    exec (.watchQuery tag [natByte w.val, flag]) s = .next (s.answered tag 0x42 .ok
      ([k.state.code, natByte k.channel.val, k.kind.code, k.action.code] ++
        wordBytes (BitVec.ofInt 32 k.low.toInt) ++ wordBytes (BitVec.ofInt 32 k.high.toInt) ++
        [natByte k.hold, natByte k.release, natByte k.run]))

/-! ## The delivery unit -/

/-- An output appended: to the FILLING batch, or to the lowest-numbered FREE slot as a new batch that takes the
pending lost count; either becomes READY at N outputs. With no slot to take it the output is lost and counted,
and a pending lost count of 65535 is reported first. -/
def Obligations.AppendFillsABatchOrLosesTheOutput : Prop :=
  ∀ (s : State) (c : ChanId) (index : OutIndex) (v : Output),
    let ch := s.chan c
    let d := s.deliv c
    let carried (b : BatchSlot) : BatchSlot := { b with
      outputs := b.outputs ++ [v]
      flags := ⟨b.flags.final, b.flags.gap || ch.flags.gap, b.flags.settling || ch.flags.settling,
        b.flags.guard || ch.flags.guard, b.flags.clip || ch.flags.clip⟩ }
    let fresh : BatchSlot := ⟨.filling, [], index, 0, ⟨false, false, false, false, false⟩, d.pendingLost,
      ch.session, 0, .stopped, false⟩
    let result (b : BatchId) (t : BatchSlot) (pendingLost : Half) : ChanDelivery :=
      if t.outputs.length < ch.config.batchSize then
        { d with slots := d.slots.set b.val t, pendingLost := pendingLost }
      else
        { d with
          slots := d.slots.set b.val { t with
            state := .ready, sequence := d.seqCounter, flags := { t.flags with final := false } }
          pendingLost := pendingLost
          seqCounter := d.seqCounter + 1
          readyOrder := d.readyOrder ++ [b] }
    let took (d' : ChanDelivery) : State × List Notice :=
      ({ s with
          delivery := s.delivery.set c.val d'
          channels := s.channels.set c.val { ch with flags := ⟨false, false, false, false⟩ } }, [])
    (∀ b, (d.slot b).state = .filling → (∀ x, x < b → (d.slot x).state ≠ .filling) →
      s.append c index v = took (result b (carried (d.slot b)) d.pendingLost)) ∧
    (∀ b, (∀ x, (d.slot x).state ≠ .filling) → (d.slot b).state = .free →
      (∀ x, x < b → (d.slot x).state ≠ .free) →
      s.append c index v = took (result b (carried fresh) 0)) ∧
    ((∀ x, (d.slot x).state ≠ .filling ∧ (d.slot x).state ≠ .free) →
      s.append c index v =
        ({ s with
            delivery := s.delivery.set c.val { d with
              pendingLost := if d.pendingLost = 65535 then 1 else d.pendingLost + 1 }
            channels := s.channels.set c.val { ch with
              counters := { ch.counters with outputsLost := inc16 ch.counters.outputsLost } } },
          if d.pendingLost = 65535 then [.deliveryLost c d.seqCounter 65535] else []))

/-- The expiry of a running ack timer: below the retry limit the batch joins the tail of the resend list with
its retry count raised; at the limit it is dropped and reported with its outputs and the loss it carried.
Where the drain watch is on and no other batch is READY or INFLIGHT, the stop then ends, by its cause. -/
def Obligations.AckTimerExpiryResendsOrDrops : Prop :=
  ∀ (s : State) (c : ChanId) (b : BatchId) (ms : Nat),
    let d := s.deliv c
    let t := d.slot b
    let last : Prop := ∀ x, x ≠ b → (d.slot x).state ≠ .ready ∧ (d.slot x).state ≠ .inflight
    t.state = .inflight → t.timer = .running ms →
    (t.retry < (s.chan c).config.retryLimit →
      exec (.ackTimerExpiry c b) s = .next { s with
        delivery := s.delivery.set c.val { d with
          slots := d.slots.set b.val { t with retry := t.retry + 1, timer := .stopped } }
        resend := s.resend ++ [(c, b)] }) ∧
    ((s.chan c).config.retryLimit ≤ t.retry → d.drainWatch = false ∨ ¬ last →
      exec (.ackTimerExpiry c b) s = .next ({ s with
        delivery := s.delivery.set c.val { d with
          slots := d.slots.set b.val .free
          inflightOrder := d.inflightOrder.filter (· != b) }
        channels := s.channels.set c.val { s.chan c with
          counters := { (s.chan c).counters with
            batchesDropped := inc16 (s.chan c).counters.batchesDropped } } }.raise
        (.deliveryLost c t.sequence (BitVec.ofNat 32 (t.outputs.length + t.lost.toNat))))) ∧
    (∀ cause : StopCause, (s.chan c).config.retryLimit ≤ t.retry → d.drainWatch = true → last →
      (s.chan c).state = .stopping → (s.chan c).stopCause = some cause →
      let ended : State := { s with
        delivery := s.delivery.set c.val { d with
          slots := d.slots.set b.val .free
          inflightOrder := d.inflightOrder.filter (· != b)
          drainWatch := false }
        channels := s.channels.set c.val { s.chan c with
          state := .ready
          stopCause := none
          opSlot := if cause = StopCause.command then (s.chan c).opSlot.finishOp .stop .ok else (s.chan c).opSlot
          counters := { (s.chan c).counters with
            batchesDropped := inc16 (s.chan c).counters.batchesDropped } } }.raise
        (.deliveryLost c t.sequence (BitVec.ofNat 32 (t.outputs.length + t.lost.toNat)))
      exec (.ackTimerExpiry c b) s =
        .next (if cause = .command then ended else ended.raise (.channelStopped c)))

/-! ## The transmit arbiter -/

/-- TRANSMISSION_START with the transmitter FREE takes the first source that waits, in the order greeting,
replies, completions by channel number, notices, resend list, new batches by class and rotation, and fixes the
frame. -/
def Obligations.TransmissionStartTakesTheFirstSource : Prop :=
  ∀ s : State, s.arbiter.transmission = none →
    let k := s.link
    let a := s.arbiter
    let eligible (c : ChanId) : Prop := (s.deliv c).readyOrder ≠ [] ∧
      ((s.chan c).config.autoAck = true ∨ (s.deliv c).count .inflight < (s.chan c).config.window)
    let noCompletion : Prop := ∀ c op tag st, (s.chan c).opSlot ≠ .unreported op tag st
    let batch (c : ChanId) (t : BatchSlot) (resend : Bool) : Frame := ⟨0x84, 0,
      [natByte c.val, t.session, t.sequence, t.flags.byte resend] ++ halfBytes t.lost ++
        [natByte t.outputs.length, 0] ++ wordBytes t.firstIndex ++ t.outputs.flatMap outputBytes⟩
    (k.greeting = true →
      exec .transmissionStart s = .next { s with arbiter := { a with transmission := some ⟨.greeting,
        ⟨0x80, 0, [0x16, 0xFE, 1, k.cause.code, natByte k.rate.val, 16, 4, 32, 64, 8]⟩⟩ } }) ∧
    (∀ r rest, k.greeting = false → k.replies = r :: rest →
      exec .transmissionStart s = .next { s with arbiter := { a with transmission := some ⟨.reply,
        ⟨0x81, r.tag, r.type :: r.status.code :: r.rxDiscards :: r.body⟩⟩ } }) ∧
    (∀ c op tag st, k.greeting = false → k.replies = [] → (s.chan c).opSlot = .unreported op tag st →
      (∀ c' < c, ∀ op tag st, (s.chan c').opSlot ≠ .unreported op tag st) →
      exec .transmissionStart s = .next { s with arbiter := { a with transmission := some ⟨.operation c,
        ⟨0x82, tag, [natByte c.val, op.code, st.code, 0]⟩⟩ } }) ∧
    (∀ n rest, k.greeting = false → k.replies = [] → noCompletion → a.notices = n :: rest →
      exec .transmissionStart s = .next { s with arbiter := { a with
        notices := rest, missed := 0
        transmission := some ⟨.notice, ⟨0x83, 0, n.code :: a.missed :: n.arguments⟩⟩ } }) ∧
    (∀ c b rest, k.greeting = false → k.replies = [] → noCompletion → a.notices = [] →
      s.resend = (c, b) :: rest →
      exec .transmissionStart s = .next { s with
        resend := rest
        delivery := s.delivery.set c.val { s.deliv c with
          slots := (s.deliv c).slots.set b.val { (s.deliv c).slot b with beingSent := true } }
        channels := s.channels.set c.val { s.chan c with
          counters := { (s.chan c).counters with
            retransmissions := inc16 (s.chan c).counters.retransmissions } }
        arbiter := { a with
          transmission := some ⟨.resend c b, batch c ((s.deliv c).slot b) true⟩ } }) ∧
    ∀ c b rest before after, k.greeting = false → k.replies = [] → noCompletion → a.notices = [] →
      s.resend = [] → a.list (s.chan c).config.cls = before ++ c :: after →
      (∀ x ∈ before, x ≠ c ∧ ¬ eligible x) → c ∉ after → eligible c →
      (∀ cls, cls < (s.chan c).config.cls → ∀ x ∈ a.list cls, ¬ eligible x) →
      (s.deliv c).readyOrder = b :: rest →
      let t := (s.deliv c).slot b
      exec .transmissionStart s = .next { s with
        delivery := s.delivery.set c.val
          (if (s.chan c).config.autoAck then
            { s.deliv c with
              slots := (s.deliv c).slots.set b.val { t with beingSent := true }, readyOrder := rest }
          else
            { s.deliv c with
              slots := (s.deliv c).slots.set b.val { t with
                beingSent := true, state := .inflight, retry := 0, timer := .stopped }
              readyOrder := rest
              inflightOrder := (s.deliv c).inflightOrder ++ [b] })
        arbiter := { a with
          rotation := a.rotation.set (s.chan c).config.cls.val (before ++ after ++ [c])
          transmission := some ⟨.batch c b, batch c t false⟩ } }

/-- SEND_COMPLETION frees the transmitter and makes the claim of the frame's kind. -/
def Obligations.SendCompletionSettlesTheFrame : Prop :=
  ∀ (s : State) (frame : Frame),
    let free : Arbiter := { s.arbiter with transmission := none }
    (s.arbiter.transmission = some ⟨.greeting, frame⟩ →
      exec .sendCompletion s = .next { s with
        arbiter := free, link := { s.link with greeting := false } }) ∧
    (s.arbiter.transmission = some ⟨.notice, frame⟩ →
      exec .sendCompletion s = .next { s with arbiter := free }) ∧
    (∀ r rest, s.arbiter.transmission = some ⟨.reply, frame⟩ → s.link.replies = r :: rest →
      (r.type ≠ 0x02 ∧ r.type ≠ 0x03 ∨ r.status ≠ .ok) →
      exec .sendCompletion s = .next { s with
        arbiter := free, link := { s.link with replies := rest } }) ∧
    (∀ r rest (rate : Fin 6) (gap : Byte), s.arbiter.transmission = some ⟨.reply, frame⟩ →
      s.link.replies = r :: rest → r.type = 0x03 → r.status = .ok → r.body = [natByte rate.val, gap] →
      (s.link.rate = rate →
        exec .sendCompletion s = .next { s with
          arbiter := free
          link := { s.link with replies := rest, gapTimeout := gap.toNat } }) ∧
      (s.link.rate ≠ rate → s.link.assembler = .seek →
        exec .sendCompletion s = .next { s with
          arbiter := free
          link := { s.link with
            replies := rest, gapTimeout := gap.toNat, rate := rate, rxChar := none } }) ∧
      (s.link.rate ≠ rate → s.link.assembler ≠ .seek →
        exec .sendCompletion s = .next { s with
          arbiter := free
          link := { s.link with
            replies := rest, gapTimeout := gap.toNat, rate := rate, rxChar := none, assembler := .seek
            gapTimer := .stopped, rxDiscards := add8 s.link.rxDiscards 1
            counters := { s.link.counters with truncated := inc16 s.link.counters.truncated } } })) ∧
    (∀ c op tag st, s.arbiter.transmission = some ⟨.operation c, frame⟩ →
      (s.chan c).opSlot = .unreported op tag st →
      exec .sendCompletion s = .next { s with
        arbiter := free, channels := s.channels.set c.val { s.chan c with opSlot := .none } }) ∧
    ∀ c b, s.arbiter.transmission = some ⟨.batch c b, frame⟩ ∨
        s.arbiter.transmission = some ⟨.resend c b, frame⟩ →
      let d := s.deliv c
      let t := d.slot b
      (t.beingSent = false → exec .sendCompletion s = .next { s with arbiter := free }) ∧
      (t.beingSent = true → t.state = .inflight →
        exec .sendCompletion s = .next { s with
          arbiter := free
          delivery := s.delivery.set c.val { d with
            slots := d.slots.set b.val { t with
              beingSent := false, timer := .running (s.chan c).config.ackTimeout } } }) ∧
      let last : Prop := ∀ x, x ≠ b → (d.slot x).state ≠ .ready ∧ (d.slot x).state ≠ .inflight
      (t.beingSent = true → t.state = .ready → d.drainWatch = false ∨ ¬ last →
        exec .sendCompletion s = .next { s with
          arbiter := free
          delivery := s.delivery.set c.val { d with slots := d.slots.set b.val .free } }) ∧
      ∀ cause : StopCause, t.beingSent = true → t.state = .ready → d.drainWatch = true → last →
        (s.chan c).state = .stopping → (s.chan c).stopCause = some cause →
        let ended : State := { s with
          arbiter := free
          delivery := s.delivery.set c.val { d with slots := d.slots.set b.val .free, drainWatch := false }
          channels := s.channels.set c.val { s.chan c with
            state := .ready, stopCause := none
            opSlot := if cause = StopCause.command then (s.chan c).opSlot.finishOp .stop .ok
              else (s.chan c).opSlot } }
        exec .sendCompletion s =
          .next (if cause = .command then ended else ended.raise (.channelStopped c))

/-! ## The bank store -/

/-- BANK_OPEN: its refusals in their order, and the allocation of the pages at the front of the pool list, which
are the lowest of the pool where the list is ascending. That the pool is kept as an ascending list is the
model's choice (log entry 18; an invariant in `StepKeepsThePageLaw`). -/
def Obligations.BankOpenTakesTheLowestPages : Prop :=
  (∀ (s : State) (tag n lo hi : Byte), s.Takes ⟨0x10, tag, [n, 0, lo, hi]⟩ → 32 ≤ n.toNat →
    exec (.bankOpen tag [n, 0, lo, hi]) s =
      .next (s.answered tag 0x10 .badArg [0, 0, 0xFF, 0xFF, 0xFF, 0xFF])) ∧
  ∀ (s : State) (tag lo hi : Byte) (b : BankId), s.Takes ⟨0x10, tag, [natByte b.val, 0, lo, hi]⟩ →
    let taps := (hi ++ lo).toNat
    let pages := (taps + 63) / 64
    let refused (status : Status) :=
      exec (.bankOpen tag [natByte b.val, 0, lo, hi]) s =
        .next (s.answered tag 0x10 status [0, 0, 0xFF, 0xFF, 0xFF, 0xFF])
    ((s.bank b).state ≠ .free → refused .inUse) ∧
    ((s.bank b).state = .free → taps = 0 ∨ 256 < taps → refused .badArg) ∧
    ((s.bank b).state = .free → 1 ≤ taps → taps ≤ 256 → s.pool.length < pages → refused .noSpace) ∧
    ((s.bank b).state = .free → 1 ≤ taps → taps ≤ 256 → pages ≤ s.pool.length →
      exec (.bankOpen tag [natByte b.val, 0, lo, hi]) s = .next
        ({ s with
            banks := s.banks.set b.val { s.bank b with
              state := .opened, taps := taps, pages := s.pool.take pages, loaded := 0 }
            pool := s.pool.drop pages }.answered tag 0x10 .ok
          ([natByte (s.pool.length - pages), natByte pages] ++
            (s.pool.take pages).map (fun p : PageId => natByte p.val) ++ List.replicate (4 - pages) 0xFF))) ∧
    (s.pool.Pairwise (· < ·) → ∀ x ∈ s.pool.take pages, ∀ y ∈ s.pool.drop pages, x < y)

/-- BANK_DATA: its refusals in their order, and the storing of coefficients in order, each with a good mark,
at their places in the bank's pages. That memory has a canonical form, which the storing keeps, is the model's
choice (log entry 18). -/
def Obligations.BankDataStoresInOrder : Prop :=
  ∀ (s : State) (tag n lo hi : Byte) (xs : List Sample), 1 ≤ xs.length → xs.length ≤ 32 →
    let p := [n, 0, lo, hi] ++ xs.flatMap halfBytes
    let offset := (hi ++ lo).toNat
    s.Takes ⟨0x11, tag, p⟩ →
    (32 ≤ n.toNat → exec (.bankData tag p) s = .next (s.answered tag 0x11 .badArg [0, 0])) ∧
    ∀ b : BankId, n = natByte b.val →
      let k := s.bank b
      (k.state ≠ .opened → exec (.bankData tag p) s = .next (s.answered tag 0x11 .wrongState [0, 0])) ∧
      (k.state = .opened → offset ≠ k.loaded →
        exec (.bankData tag p) s = .next (s.answered tag 0x11 .sequence (natBytes k.loaded))) ∧
      (k.state = .opened → offset = k.loaded → k.taps < offset + xs.length →
        exec (.bankData tag p) s = .next (s.answered tag 0x11 .badArg (natBytes k.loaded))) ∧
      (k.state = .opened → offset = k.loaded → offset + xs.length ≤ k.taps → s.PageLaw →
        Memory.wf s.coeffMem = true →
        ∃ m : List (Nat × StoredWord),
          exec (.bankData tag p) s = .next
            ({ s with
                coeffMem := m
                banks := s.banks.set b.val { k with loaded := k.loaded + xs.length } }.answered tag 0x11
              .ok (natBytes (k.loaded + xs.length))) ∧
          Memory.wf m = true ∧
          (∀ j (page : PageId), j < xs.length → k.pages[(k.loaded + j) / 64]? = some page →
            memRead m (page.val * 64 + (k.loaded + j) % 64) = ⟨xs.getD j 0, true⟩) ∧
          ∀ a, (∀ j (page : PageId), j < xs.length → k.pages[(k.loaded + j) / 64]? = some page →
              a ≠ page.val * 64 + (k.loaded + j) % 64) →
            memRead m a = memRead s.coeffMem a)

/-- BANK_SEAL: its refusals in their order, the sealing of a bank whose marks are good and whose checksum
agrees, and CHECK_FAIL, which sets loaded to 0; a word found bad at the read-back fails the seal whatever the
checksum carried. -/
def Obligations.BankSealChecksTheChecksum : Prop :=
  (∀ (s : State) (tag n lo hi : Byte) (upsets : List (Fin 256 × Sample)),
    s.Takes ⟨0x12, tag, [n, 0, lo, hi]⟩ → 32 ≤ n.toNat →
    exec (.bankSeal tag [n, 0, lo, hi] upsets) s = .next (s.answered tag 0x12 .badArg [0, 0])) ∧
  ∀ (s : State) (tag lo hi : Byte) (upsets : List (Fin 256 × Sample)) (b : BankId),
    s.Takes ⟨0x12, tag, [natByte b.val, 0, lo, hi]⟩ →
    let p : List Byte := [natByte b.val, 0, lo, hi]
    let k := s.bank b
    let sum (m : List (Nat × StoredWord)) : Half := crc16 ((List.range k.taps).flatMap fun j =>
      halfBytes (({ s with coeffMem := m }.coeff k j).value))
    (k.state ≠ .opened →
      exec (.bankSeal tag p upsets) s = .next (s.answered tag 0x12 .wrongState [0, 0])) ∧
    (k.state = .opened → k.loaded ≠ k.taps →
      exec (.bankSeal tag p upsets) s = .next (s.answered tag 0x12 .incomplete [0, 0])) ∧
    (k.state = .opened → k.loaded = k.taps → upsets = [] →
      (∀ j, j < k.taps → (s.coeff k j).markGood = true) → sum s.coeffMem = hi ++ lo →
      exec (.bankSeal tag p upsets) s = .next
        ({ s with banks := s.banks.set b.val { k with state := .sealed } }.answered tag 0x12 .ok
          (halfBytes (sum s.coeffMem)))) ∧
    (k.state = .opened → k.loaded = k.taps → upsets = [] →
      (∃ j, j < k.taps ∧ (s.coeff k j).markGood = false) ∨ sum s.coeffMem ≠ hi ++ lo →
      exec (.bankSeal tag p upsets) s = .next
        ({ s with banks := s.banks.set b.val { k with loaded := 0 } }.answered tag 0x12 .checkFail
          (halfBytes (sum s.coeffMem)))) ∧
    ∀ (j : Fin 256) (v : Sample) (page : PageId), k.state = .opened → k.loaded = k.taps →
      upsets = [(j, v)] → j.val < k.taps → k.pages[j.val / 64]? = some page →
      Memory.wf s.coeffMem = true →
      let m := memWrite s.coeffMem (page.val * 64 + j.val % 64) ⟨v, false⟩
      exec (.bankSeal tag p upsets) s = .next
        ({ s with coeffMem := m, banks := s.banks.set b.val { k with loaded := 0 } }.answered tag 0x12
          .checkFail (halfBytes (sum m)))

/-- BANK_FREE: its refusals in their order, and the return of the pages to the pool. BANK_QUERY. That the pool,
which has no order in the manual, is kept as an ascending list is the model's choice (log entry 18). -/
def Obligations.BankFreeReturnsThePages : Prop :=
  (∀ (s : State) (tag n : Byte), s.Takes ⟨0x13, tag, [n, 0]⟩ → 32 ≤ n.toNat →
    exec (.bankFree tag [n, 0]) s = .next (s.answered tag 0x13 .badArg [])) ∧
  (∀ (s : State) (tag : Byte) (b : BankId), s.Takes ⟨0x13, tag, [natByte b.val, 0]⟩ →
    let k := s.bank b
    let refused (status : Status) :=
      exec (.bankFree tag [natByte b.val, 0]) s = .next (s.answered tag 0x13 status [])
    (k.state = .free → refused .wrongState) ∧
    (k.state ≠ .free → 0 < k.refs → refused .inUse) ∧
    (k.state ≠ .free → k.refs = 0 → k.hold = true → refused .busy) ∧
    (k.state ≠ .free → k.refs = 0 → k.hold = false →
      ∃ pool : List PageId, (∀ x, x ∈ pool ↔ x ∈ s.pool ∨ x ∈ k.pages) ∧
        (s.pool.Pairwise (· < ·) → pool.Pairwise (· < ·)) ∧
        exec (.bankFree tag [natByte b.val, 0]) s = .next
          ({ s with banks := s.banks.set b.val ⟨.free, 0, [], 0, 0, false⟩, pool := pool }.answered
            tag 0x13 .ok []))) ∧
  (∀ (s : State) (tag n flag : Byte), s.Takes ⟨0x14, tag, [n, flag]⟩ → flag.toNat < 2 → 32 ≤ n.toNat →
    exec (.bankQuery tag [n, flag]) s = .next (s.answered tag 0x14 .badArg
      [0, 0, 0, 0, 0, 0, 0, 0, 0xFF, 0xFF, 0xFF, 0xFF, 0])) ∧
  ∀ (s : State) (tag flag : Byte) (b : BankId), s.Takes ⟨0x14, tag, [natByte b.val, flag]⟩ →
    flag.toNat < 2 →
    let k := s.bank b
    let loaded := match k.state with
      | .free => 0
      | .opened => k.loaded
      | .sealed => k.taps
      | .damaged => k.taps
    exec (.bankQuery tag [natByte b.val, flag]) s = .next (s.answered tag 0x14 .ok
      ([k.state.code] ++ natBytes k.taps ++ natBytes loaded ++
        [natByte k.refs, boolByte k.hold, natByte k.pages.length] ++
        k.pages.map (fun p => natByte p.val) ++ List.replicate (4 - k.pages.length) 0xFF ++
        [natByte s.pool.length]))

/-! ## The channel controller -/

/-- CHAN_CONFIG and CHAN_BIND with their refusals in their order. A configuration in range replaces the old one
whole, and a class change moves the channel to the tail of its new rotation list; a SEALED bank becomes the
active bank, its reference count rising by one and the old bank's falling by one. -/
def Obligations.ConfigAndBindPrepareAChannel : Prop :=
  (∀ (s : State) (tag : Byte) (p : List Byte), p.length = 14 → s.Takes ⟨0x30, tag, p⟩ →
    (16 ≤ (byteAt p 0).toNat → exec (.chanConfig tag p) s = .next (s.answered tag 0x30 .badArg [])) ∧
    ∀ c : ChanId, byteAt p 0 = natByte c.val →
      let settled := (s.chan c).state = .idle ∨ (s.chan c).state = .ready
      let v (i : Nat) := (byteAt p i).toNat
      let inRange := v 1 < 4 ∧ v 2 < 8 ∧ 1 ≤ v 3 ∧ v 3 ≤ 64 ∧ v 4 ≤ 23 ∧ v 5 < 2 ∧ v 6 < 2 ∧ 1 ≤ v 7 ∧
        v 7 ≤ 32 ∧ 1 ≤ v 8 ∧ v 8 ≤ 3 ∧ v 9 < 2 ∧ v 10 < 4 ∧ v 11 ≤ 7 ∧ 1 ≤ (halfAt p 12).toNat ∧
        (halfAt p 12).toNat ≤ 2000
      (¬ settled → exec (.chanConfig tag p) s = .next (s.answered tag 0x30 .wrongState [])) ∧
      (settled → ¬ inRange → exec (.chanConfig tag p) s = .next (s.answered tag 0x30 .badArg []))) ∧
  (∀ (s : State) (tag : Byte) (c : ChanId) (g : ChanConfig), g.InRange →
    let p := natByte c.val :: ([natByte g.lane.val, natByte g.slot.val, natByte g.decimation,
      natByte g.shift, boolByte g.fraction, g.policy.code, natByte g.batchSize, natByte g.window,
      boolByte g.autoAck, natByte g.cls.val, natByte g.retryLimit] ++ natBytes g.ackTimeout)
    s.Takes ⟨0x30, tag, p⟩ → (s.chan c).state = .idle ∨ (s.chan c).state = .ready →
    let old := (s.chan c).config.cls
    let without := (s.arbiter.list old).filter (· != c)
    exec (.chanConfig tag p) s = .next
      ({ s with
          channels := s.channels.set c.val { s.chan c with config := g }
          arbiter := { s.arbiter with
            rotation := if old = g.cls then s.arbiter.rotation
              else (s.arbiter.rotation.set old.val without).set g.cls.val
                (s.arbiter.list g.cls ++ [c]) } }.answered tag 0x30 .ok [])) ∧
  (∀ (s : State) (tag n m : Byte), s.Takes ⟨0x31, tag, [n, m]⟩ →
    (16 ≤ n.toNat → exec (.chanBind tag [n, m]) s = .next (s.answered tag 0x31 .badArg [])) ∧
    ∀ c : ChanId, n = natByte c.val →
      let settled := (s.chan c).state = .idle ∨ (s.chan c).state = .ready
      (¬ settled → exec (.chanBind tag [n, m]) s = .next (s.answered tag 0x31 .wrongState [])) ∧
      (settled → 32 ≤ m.toNat →
        exec (.chanBind tag [n, m]) s = .next (s.answered tag 0x31 .badArg [])) ∧
      ∀ b : BankId, m = natByte b.val → settled →
        ((s.bank b).state = .free →
          exec (.chanBind tag [n, m]) s = .next (s.answered tag 0x31 .badArg [])) ∧
        ((s.bank b).state = .opened ∨ (s.bank b).state = .damaged →
          exec (.chanBind tag [n, m]) s = .next (s.answered tag 0x31 .wrongState [])) ∧
        ((s.bank b).state = .sealed →
          ∃ banks : Vector Bank 32,
            (∀ x : BankId, banks[x.val] = { s.bank x with
              refs := (s.bank x).refs + (if x = b then 1 else 0) -
                (if (s.chan c).active = some x then 1 else 0) }) ∧
            exec (.chanBind tag [n, m]) s = .next
              ({ s with
                  banks := banks
                  channels := s.channels.set c.val { s.chan c with
                    active := some b, state := .ready } }.answered tag 0x31 .ok [])))

/-- CHAN_START: its refusals, and the run it begins. -/
def Obligations.StartBeginsARun : Prop :=
  ∀ (s : State) (tag n : Byte), s.Takes ⟨0x32, tag, [n, 0]⟩ →
    (16 ≤ n.toNat → exec (.chanStart tag [n, 0]) s = .next (s.answered tag 0x32 .badArg [])) ∧
    ∀ c : ChanId, n = natByte c.val →
      let ch := s.chan c
      let lane := s.lane ch.config.lane
      (ch.state ≠ .ready ∨ lane.state = .off ∨ lane.slotCount ≤ ch.config.slot.val →
        exec (.chanStart tag [n, 0]) s = .next (s.answered tag 0x32 .wrongState [])) ∧
      (ch.state = .ready → lane.state ≠ .off → ch.config.slot.val < lane.slotCount →
        ∃ watches : Vector Watch 8,
          (∀ w : WatchId, watches[w.val] =
            if (s.watch w).channel = c ∧ (s.watch w).state ≠ .off then
              { s.watch w with state := .clear, run := 0 } else s.watch w) ∧
          exec (.chanStart tag [n, 0]) s = .next
            ({ s with
                channels := s.channels.set c.val { ch with
                  session := ch.session + 1, phase := 0, fill := 0, outIndex := 0
                  flags := ⟨false, false, false, false⟩, state := .running }
                delivery := s.delivery.set c.val { s.deliv c with seqCounter := 0, pendingLost := 0 }
                watches := watches }.answered tag 0x32 .ok []))

/-- CHAN_STOP: its refusals in their order, the stop whose close waits for the dispatch in flight, be the
channel's entry there struck or not (log entry 13), and the close made at once: the FILLING batch becomes READY
with FINAL, a pending loss is reported where there is none, and a channel with no batch left is READY at once.
The oldest watch stop request that waits, taken on an empty queue (log entry 12): ignored unless the channel is
RUNNING, else a stop with cause WATCH, which cancels a pending swap and closes as a CHAN_STOP does. By either
stop, the channel's watch stop requests that still wait are ignored (R90). -/
def Obligations.StopClosesTheBatchBeingFilled : Prop :=
  (∀ (s : State) (c : ChanId) (rest : List ChanId), s.pending = [] → s.stopRequests = c :: rest →
    let u : State := { s with stopRequests := rest }
    let ch := s.chan c
    let stopping : Channel := { ch with
      state := .stopping, stopCause := some .watch, staged := none
      opSlot := ch.opSlot.finishOp .swap .cancelled }
    let inFlight := ∃ x, s.engine.dispatch = some x ∧ ∃ e ∈ x.snapshot, e.channel = c
    (ch.state ≠ .running → step s = .next u) ∧
    (ch.state = .running → ∃ banks : Vector Bank 32,
      (∀ b : BankId, banks[b.val] = { s.bank b with
        refs := (s.bank b).refs - if ch.staged = some b then 1 else 0 }) ∧
      (inFlight →
        step s = .next { u with
          banks := banks
          channels := s.channels.set c.val stopping
          stopRequests := rest.filter (· != c) }) ∧
      (¬ inFlight → ∃ ch' d' ns, Closes c stopping (s.deliv c) ch' d' ns ∧
        step s = .next ({ u with
          stopRequests := rest.filter (· != c)
          banks := banks
          channels := s.channels.set c.val ch'
          delivery := s.delivery.set c.val d' }.raiseAll ns)))) ∧
  ∀ (s : State) (tag n : Byte), s.Takes ⟨0x33, tag, [n, 0]⟩ →
    (16 ≤ n.toNat → exec (.chanStop tag [n, 0]) s = .next (s.answered tag 0x33 .badArg [])) ∧
    ∀ c : ChanId, n = natByte c.val →
      let ch := s.chan c
      let d := s.deliv c
      let stopping : Channel := { ch with
        state := .stopping, stopCause := some .command, opSlot := .pending .stop tag }
      let stopped : Channel := { ch with
        state := .ready, stopCause := none, opSlot := .unreported .stop tag .ok }
      let u : State := { s with stopRequests := s.stopRequests.filter (· != c) }
      let absent := ∀ x, s.engine.dispatch = some x → ∀ e ∈ x.snapshot, e.channel ≠ c
      (ch.state ≠ .running →
        exec (.chanStop tag [n, 0]) s = .next (s.answered tag 0x33 .wrongState [])) ∧
      (ch.state = .running → ch.opSlot ≠ .none →
        exec (.chanStop tag [n, 0]) s = .next (s.answered tag 0x33 .busy [])) ∧
      (∀ (x : Dispatch) (e : SnapEntry), ch.state = .running → ch.opSlot = .none →
        s.engine.dispatch = some x → e ∈ x.snapshot → e.channel = c →
        exec (.chanStop tag [n, 0]) s = .next
          ({ u with channels := s.channels.set c.val stopping }.answered tag 0x33 .accepted [])) ∧
      (∀ b, ch.state = .running → ch.opSlot = .none → absent → d.drainWatch = false →
        (d.slot b).state = .filling → (∀ x, x < b → (d.slot x).state ≠ .filling) →
        exec (.chanStop tag [n, 0]) s = .next
          ({ u with
              channels := s.channels.set c.val stopping
              delivery := s.delivery.set c.val { d with
                slots := d.slots.set b.val { d.slot b with
                  state := .ready, sequence := d.seqCounter
                  flags := { (d.slot b).flags with final := true } }
                seqCounter := d.seqCounter + 1
                readyOrder := d.readyOrder ++ [b]
                drainWatch := true } }.answered tag 0x33 .accepted [])) ∧
      (ch.state = .running → ch.opSlot = .none → absent → d.drainWatch = false →
        (∀ x, (d.slot x).state ≠ .filling) → (∃ x, (d.slot x).state ≠ .free) →
        exec (.chanStop tag [n, 0]) s = .next
          ((let t : State := { u with
              channels := s.channels.set c.val stopping
              delivery := s.delivery.set c.val { d with pendingLost := 0, drainWatch := true } }
            if d.pendingLost = 0 then t
            else t.raise (.deliveryLost c d.seqCounter (d.pendingLost.zeroExtend 32))).answered
            tag 0x33 .accepted [])) ∧
      (ch.state = .running → ch.opSlot = .none → absent → d.drainWatch = false →
        (∀ x, (d.slot x).state = .free) →
        exec (.chanStop tag [n, 0]) s = .next
          ((let t : State := { u with
              channels := s.channels.set c.val stopped
              delivery := s.delivery.set c.val { d with pendingLost := 0, drainWatch := false } }
            if d.pendingLost = 0 then t
            else t.raise (.deliveryLost c d.seqCounter (d.pendingLost.zeroExtend 32))).answered
            tag 0x33 .accepted []))

/-- CHAN_ABORT and CHAN_CLEAR with their refusals: an abort discards the batches, releases a staged bank, ends
a pending operation with ABORTED and strikes the channel's entry in the dispatch in flight; a clear returns the
channel to IDLE with its defaults and drops its reference. An operation ends as the table of R11 says: PENDING
becomes UNREPORTED with the status, and any other slot, or a pending operation of another kind, stays. -/
def Obligations.AbortEndsTheRunAndClearReturnsToIdle : Prop :=
  (∀ (op : Operation) (tag : Byte) (status : DoneStatus),
    (OpSlot.pending op tag).finish status = .unreported op tag status ∧
    (OpSlot.pending op tag).finishOp op status = .unreported op tag status ∧
    (∀ op', op ≠ op' → (OpSlot.pending op tag).finishOp op' status = .pending op tag) ∧
    ∀ slot : OpSlot, (∀ op tag, slot ≠ .pending op tag) →
      slot.finish status = slot ∧ slot.finishOp op status = slot) ∧
  (∀ (s : State) (tag n : Byte), s.Takes ⟨0x34, tag, [n, 0]⟩ →
    (16 ≤ n.toNat → exec (.chanAbort tag [n, 0]) s = .next (s.answered tag 0x34 .badArg [])) ∧
    ∀ c : ChanId, n = natByte c.val →
      let ch := s.chan c
      (ch.state ≠ .running → ch.state ≠ .stopping →
        exec (.chanAbort tag [n, 0]) s = .next (s.answered tag 0x34 .wrongState [])) ∧
      (ch.state = .running ∨ ch.state = .stopping →
        ∃ banks : Vector Bank 32,
          (∀ x : BankId, banks[x.val] = { s.bank x with
            refs := (s.bank x).refs - if ch.staged = some x then 1 else 0 }) ∧
          exec (.chanAbort tag [n, 0]) s = .next
            ({ s with
                channels := s.channels.set c.val { ch with
                  state := .ready, stopCause := none, staged := none, opSlot := ch.opSlot.finish .aborted }
                banks := banks
                delivery := s.delivery.set c.val { s.deliv c with
                  slots := Vector.replicate 4 .free, pendingLost := 0, readyOrder := []
                  inflightOrder := [], drainWatch := false }
                resend := s.resend.filter (fun e => e.1 != c)
                engine := { s.engine with
                  dispatch := s.engine.dispatch.map fun x : Dispatch => { x with
                    snapshot := x.snapshot.map fun e : SnapEntry =>
                      if e.channel = c then { e with struck := true } else e } } }.answered
              tag 0x34 .ok []))) ∧
  ∀ (s : State) (tag n : Byte), s.Takes ⟨0x35, tag, [n, 0]⟩ →
    (16 ≤ n.toNat → exec (.chanClear tag [n, 0]) s = .next (s.answered tag 0x35 .badArg [])) ∧
    ∀ c : ChanId, n = natByte c.val →
      let ch := s.chan c
      let old := ch.config.cls
      (ch.state = .running ∨ ch.state = .stopping →
        exec (.chanClear tag [n, 0]) s = .next (s.answered tag 0x35 .wrongState [])) ∧
      (ch.state ≠ .running → ch.state ≠ .stopping →
        ∃ banks : Vector Bank 32,
          (∀ x : BankId, banks[x.val] = { s.bank x with
            refs := (s.bank x).refs - if ch.active = some x then 1 else 0 }) ∧
          exec (.chanClear tag [n, 0]) s = .next
            ({ s with
                channels := s.channels.set c.val { ch with
                  config := .default, active := none, phase := 0, fill := 0, outIndex := 0
                  flags := ⟨false, false, false, false⟩, counters := ⟨0, 0, 0, 0, 0, 0⟩, state := .idle }
                banks := banks
                arbiter := { s.arbiter with
                  rotation := if old = 3 then s.arbiter.rotation
                    else (s.arbiter.rotation.set old.val ((s.arbiter.list old).filter (· != c))).set 3
                      (s.arbiter.list 3 ++ [c]) } }.answered tag 0x35 .ok []))

/-- CHAN_SWAP: its refusals in their order, the swap carried out at once in READY, and the bank staged in
RUNNING. -/
def Obligations.SwapIsImmediateOrStaged : Prop :=
  ∀ (s : State) (tag n m : Byte), s.Takes ⟨0x36, tag, [n, m]⟩ →
    let refused (status : Status) :=
      exec (.chanSwap tag [n, m]) s = .next (s.answered tag 0x36 status [])
    (16 ≤ n.toNat → refused .badArg) ∧
    ∀ c : ChanId, n = natByte c.val →
      let ch := s.chan c
      let taken := ch.state = .ready ∨ ch.state = .running
      (¬ taken → refused .wrongState) ∧
      (taken → ch.opSlot ≠ .none → refused .busy) ∧
      (taken → ch.opSlot = .none → 32 ≤ m.toNat → refused .badArg) ∧
      ∀ b : BankId, m = natByte b.val → ch.opSlot = .none →
        (taken → (s.bank b).state = .free → refused .badArg) ∧
        (taken → (s.bank b).state = .opened ∨ (s.bank b).state = .damaged → refused .wrongState) ∧
        (ch.state = .ready → (s.bank b).state = .sealed →
          ∃ banks : Vector Bank 32,
            (∀ x : BankId, banks[x.val] = { s.bank x with
              refs := (s.bank x).refs + (if x = b then 1 else 0) -
                (if ch.active = some x then 1 else 0) }) ∧
            exec (.chanSwap tag [n, m]) s = .next
              ({ s with
                  banks := banks
                  channels := s.channels.set c.val { ch with
                    active := some b, opSlot := .unreported .swap tag .ok } }.answered
                tag 0x36 .accepted [])) ∧
        (ch.state = .running → (s.bank b).state = .sealed →
          exec (.chanSwap tag [n, m]) s = .next
            ({ s with
                banks := s.banks.set b.val { s.bank b with refs := (s.bank b).refs + 1 }
                channels := s.channels.set c.val { ch with
                  staged := some b, opSlot := .pending .swap tag } }.answered tag 0x36 .accepted []))

/-- CHAN_QUERY reports a channel and clears its counters on request; CHAN_ROTATE moves a channel to the head of
the list of its class. -/
def Obligations.QueryReportsAndRotateMovesToTheHead : Prop :=
  (∀ (s : State) (tag n flag : Byte), s.Takes ⟨0x37, tag, [n, flag]⟩ → flag.toNat < 2 → 16 ≤ n.toNat →
    exec (.chanQuery tag [n, flag]) s = .next (s.answered tag 0x37 .badArg (List.replicate 49 0))) ∧
  (∀ (s : State) (tag flag : Byte) (c : ChanId), s.Takes ⟨0x37, tag, [natByte c.val, flag]⟩ →
    flag.toNat < 2 →
    let ch := s.chan c
    let d := s.deliv c
    let g := ch.config
    exec (.chanQuery tag [natByte c.val, flag]) s = .next
      ({ s with channels := if flag = 1 then
          s.channels.set c.val { ch with counters := ⟨0, 0, 0, 0, 0, 0⟩ } else s.channels }.answered
        tag 0x37 .ok
        ([ch.state.code, stopCauseCode ch.stopCause, natByte g.lane.val, natByte g.slot.val,
          natByte g.decimation, natByte g.shift, boolByte g.fraction, g.policy.code, natByte g.batchSize,
          natByte g.window, boolByte g.autoAck, natByte g.cls.val, natByte g.retryLimit] ++
          natBytes g.ackTimeout ++ [bankByte ch.active, bankByte ch.staged, ch.session,
          natByte ch.phase] ++ natBytes ch.fill ++ wordBytes ch.outIndex ++ [ch.flags.byte] ++
          ch.opSlot.report ++ [natByte (d.count .free), natByte (d.count .filling),
          natByte (d.count .ready), natByte (d.count .inflight), d.seqCounter] ++
          halfBytes d.pendingLost ++ halfBytes ch.counters.guardEvents ++
          halfBytes ch.counters.clipEvents ++ halfBytes ch.counters.gapEvents ++
          halfBytes ch.counters.outputsLost ++ halfBytes ch.counters.batchesDropped ++
          halfBytes ch.counters.retransmissions))) ∧
  (∀ (s : State) (tag k n : Byte), s.Takes ⟨0x38, tag, [k, n]⟩ →
    4 ≤ k.toNat ∨ 16 ≤ n.toNat ∨ (∃ c : ChanId, n = natByte c.val ∧
      k ≠ natByte (s.chan c).config.cls.val) →
    exec (.chanRotate tag [k, n]) s = .next (s.answered tag 0x38 .badArg [])) ∧
  ∀ (s : State) (tag : Byte) (c : ChanId),
    let k := (s.chan c).config.cls
    s.Takes ⟨0x38, tag, [natByte k.val, natByte c.val]⟩ →
    exec (.chanRotate tag [natByte k.val, natByte c.val]) s = .next
      ({ s with arbiter := { s.arbiter with
          rotation := s.arbiter.rotation.set k.val
            (c :: (s.arbiter.list k).filter (· != c)) } }.answered tag 0x38 .ok [])

/-! ## Resets -/

/-- A power and a pin reset: every block at its reset values, but for coefficient memory and the history rings,
which keep their contents; the cause is recorded, the greeting is pending, and the break detector starts in
SPACE where HRX is at space. The second part is the values of the tables. The reset as one event is the model's
choice (log entry 17), and so are that the watch stop requests which wait are dropped with it (log entry 12), the
zero fields of the FREE slots (log entry 20) and the order of the pool (log entry 18). -/
def Obligations.PowerAndPinResetGiveTheResetValues : Prop :=
  (∀ (s : State) (space : Bool),
    let reset (cause : ResetCause) : State := { State.reset with
      link := { Link.reset with cause := cause, detector := if space then .space else .idle }
      coeffMem := s.coeffMem
      engine := { State.reset.engine with rings := s.engine.rings }
      pending := s.pending }
    exec (.powerReset space) s = .next (reset .power) ∧
    exec (.pinReset space) s = .next (reset .pin)) ∧
  State.reset.link = ⟨0, 5, .seek, .stopped, .readyForStart, none, .idle, [], [], false, 0, ⟨0, 0, 0, 0, 0⟩,
    true, .power⟩ ∧
  (∀ c, State.reset.chan c = ⟨⟨0, 0, 1, 15, false, .sat, 8, 2, false, 3, 50, 3⟩, .idle, none, none, 0, 0, 0,
    0, ⟨false, false, false, false⟩, none, .none, ⟨0, 0, 0, 0, 0, 0⟩⟩) ∧
  (∀ b, State.reset.bank b = ⟨.free, 0, [], 0, 0, false⟩) ∧ State.reset.pool = List.finRange 64 ∧
  (∀ l, State.reset.lane l = ⟨.off, 8, 0, [], [], false, 0, 0, 0, ⟨[], false, none⟩⟩) ∧
  State.reset.engine.lastServed = 3 ∧ State.reset.engine.dispatch = none ∧
  (∀ w, State.reset.watch w = ⟨.off, 0, .above, 0, 0, 1, 1, .notify, 0⟩) ∧
  (∀ c, (∀ b, ((State.reset.deliv c).slot b).state = .free ∧
      ((State.reset.deliv c).slot b).timer = .stopped ∧
      ((State.reset.deliv c).slot b).beingSent = false) ∧
    (State.reset.deliv c).seqCounter = 0 ∧ (State.reset.deliv c).pendingLost = 0 ∧
    (State.reset.deliv c).readyOrder = [] ∧ (State.reset.deliv c).inflightOrder = [] ∧
    (State.reset.deliv c).drainWatch = false) ∧
  State.reset.resend = [] ∧ State.reset.arbiter.transmission = none ∧
  State.reset.arbiter.notices = [] ∧ State.reset.arbiter.missed = 0 ∧
  State.reset.arbiter.list 0 = [] ∧ State.reset.arbiter.list 1 = [] ∧
  State.reset.arbiter.list 2 = [] ∧ State.reset.arbiter.list 3 = List.finRange 16

/-- LINK_RESET in SPACE: the queues are emptied, the frame in progress is abandoned and settled by its kind,
and a pending device reset is performed with it. That the device reset drops the watch stop requests which wait is
the model's choice (log entry 12), and so are the zero fields of the FREE slots (log entry 20) and the order of the
pool (log entry 18). -/
def Obligations.LinkResetAbandonsTheFrameInProgress : Prop :=
  ∀ s : State, s.link.detector = .space →
    let k : Link := { s.link with
      assembler := .seek, gapTimer := .stopped, inbound := [], replies := [], rxDiscards := 0
      cause := .link, greeting := true, detector := .broken }
    let free : Arbiter := { s.arbiter with transmission := none }
    (s.link.resetPending = true →
      exec .linkReset s = .next { State.reset with
        link := { k with resetPending := false, cause := .command }
        coeffMem := s.coeffMem
        engine := { State.reset.engine with rings := s.engine.rings }
        pending := s.pending }) ∧
    (s.link.resetPending = false →
      (s.arbiter.transmission = none → exec .linkReset s = .next { s with link := k }) ∧
      (∀ frame source, s.arbiter.transmission = some ⟨source, frame⟩ →
        source = .greeting ∨ source = .reply ∨ (∃ c, source = .operation c) →
        exec .linkReset s = .next { s with link := k, arbiter := free }) ∧
      (∀ frame, s.arbiter.transmission = some ⟨.notice, frame⟩ →
        exec .linkReset s = .next { s with
          link := k
          arbiter := { free with
            missed := add8 s.arbiter.missed ((byteAt frame.payload 1).toNat + 1) } }) ∧
      ∀ frame c b, s.arbiter.transmission = some ⟨.batch c b, frame⟩ ∨
          s.arbiter.transmission = some ⟨.resend c b, frame⟩ →
        let d := s.deliv c
        let t := d.slot b
        (t.beingSent = false → exec .linkReset s = .next { s with link := k, arbiter := free }) ∧
        (t.beingSent = true → t.state = .inflight →
          exec .linkReset s = .next { s with
            link := k
            arbiter := free
            delivery := s.delivery.set c.val { d with
              slots := d.slots.set b.val { t with
                beingSent := false, timer := .running (s.chan c).config.ackTimeout } } }) ∧
        (t.beingSent = true → t.state = .ready →
          exec .linkReset s = .next { s with
            link := k
            arbiter := free
            delivery := s.delivery.set c.val { d with
              slots := d.slots.set b.val { t with beingSent := false }
              readyOrder := b :: d.readyOrder } }))

/-! ## Invariants of the step -/

/-- The queues keep within their capacities, and the link controller keeps its ranges. -/
def Obligations.StepKeepsQueuesAndLinkInBounds : Prop :=
  (∀ s t : State, s.QueuesBounded → step s = .next t → t.QueuesBounded) ∧
  ∀ s t : State, s.LinkLaw → step s = .next t → t.LinkLaw

/-- Coefficient memory keeps its canonical form, which is wholly the model's choice: the list form (log entry 18)
and what a word that nothing has written reads as (log entry 6). -/
def Obligations.StepKeepsMemoryCanonical : Prop :=
  ∀ s t : State, Memory.wf s.coeffMem = true → step s = .next t → Memory.wf t.coeffMem = true

/-- Configurations, phases, fill counts, rings, retry counts and watch counts keep their ranges. -/
def Obligations.StepKeepsTheRunLaw : Prop :=
  ∀ s t : State, s.RunLaw → step s = .next t → t.RunLaw

/-- Every page stays in the pool or with exactly one bank that is not FREE. The conjunct that the pool is
ascending is the model's choice (log entry 18). -/
def Obligations.StepKeepsThePageLaw : Prop :=
  ∀ s t : State, s.PageLaw → step s = .next t → t.PageLaw

/-- A channel's state keeps agreeing with its banks, its stop cause and its operation slot; no watch stop request
waits for a STOPPING channel, and at most one for any channel, in the list that is the model's own (log entry 12). -/
def Obligations.StepKeepsTheChannelLaw : Prop :=
  ∀ s t : State, s.ChannelLaw → step s = .next t → t.ChannelLaw

/-- Every bank's reference count stays the number of channels that name it, holds stay those of the dispatch in
flight, and a bank in use stays SEALED or DAMAGED. -/
def Obligations.StepKeepsTheUseLaw : Prop :=
  ∀ s t : State, s.ChannelLaw → s.UseLaw → step s = .next t → t.UseLaw

/-- Every lane record keeps the law of its state. The conjunct that the gap-pending set is ascending is the
model's choice (log entry 18). -/
def Obligations.StepKeepsTheLaneLaw : Prop :=
  ∀ s t : State, s.LaneLaw → step s = .next t → t.LaneLaw

/-- Every channel stays in exactly one rotation list, the list of its class. -/
def Obligations.StepKeepsTheRotationLaw : Prop :=
  ∀ s t : State, s.RotationLaw → step s = .next t → t.RotationLaw

/-- Every batch stays where its state puts it, every INFLIGHT batch in exactly one of its three conditions, and
the batches of a channel within its sizes and its window. -/
def Obligations.StepKeepsTheWindowLaw : Prop :=
  ∀ s t : State, s.WindowLaw → step s = .next t → t.WindowLaw

/-- The state after reset obeys every law. The canonical form of memory and the list of the watch stop requests
that wait are the model's own (log entries 18 and 12). -/
def Obligations.ResetObeysEveryLaw : Prop :=
  State.reset.QueuesBounded ∧ State.reset.LinkLaw ∧ Memory.wf State.reset.coeffMem = true ∧
    State.reset.RunLaw ∧ State.reset.PageLaw ∧ State.reset.ChannelLaw ∧ State.reset.UseLaw ∧
    State.reset.LaneLaw ∧ State.reset.RotationLaw ∧ State.reset.WindowLaw
end

