-- ==== Sys2Proof/Laws/State.lean ====
section
/-! SUPPORT. One lemma for each field and each update of State, true by rfl, and the reading laws of the
tables: what was written at an index is read there, and every other index reads as before. -/

namespace Sys2Proof.Machine

variable (s : State)

/-! ## modChan -/

@[simp] theorem State.modChan_link (i : ChanId) (f : Channel → Channel) : (s.modChan i f).link = s.link := rfl
@[simp] theorem State.modChan_coeffMem (i : ChanId) (f : Channel → Channel) : (s.modChan i f).coeffMem = s.coeffMem := rfl
@[simp] theorem State.modChan_pool (i : ChanId) (f : Channel → Channel) : (s.modChan i f).pool = s.pool := rfl
@[simp] theorem State.modChan_banks (i : ChanId) (f : Channel → Channel) : (s.modChan i f).banks = s.banks := rfl
@[simp] theorem State.modChan_bank (i : ChanId) (f : Channel → Channel) (j : BankId) : (s.modChan i f).bank j = s.bank j := rfl
@[simp] theorem State.modChan_lanes (i : ChanId) (f : Channel → Channel) : (s.modChan i f).lanes = s.lanes := rfl
@[simp] theorem State.modChan_lane (i : ChanId) (f : Channel → Channel) (j : LaneId) : (s.modChan i f).lane j = s.lane j := rfl
@[simp] theorem State.modChan_engine (i : ChanId) (f : Channel → Channel) : (s.modChan i f).engine = s.engine := rfl
@[simp] theorem State.modChan_watches (i : ChanId) (f : Channel → Channel) : (s.modChan i f).watches = s.watches := rfl
@[simp] theorem State.modChan_watch (i : ChanId) (f : Channel → Channel) (j : WatchId) : (s.modChan i f).watch j = s.watch j := rfl
@[simp] theorem State.modChan_delivery (i : ChanId) (f : Channel → Channel) : (s.modChan i f).delivery = s.delivery := rfl
@[simp] theorem State.modChan_deliv (i : ChanId) (f : Channel → Channel) (j : ChanId) : (s.modChan i f).deliv j = s.deliv j := rfl
@[simp] theorem State.modChan_resend (i : ChanId) (f : Channel → Channel) : (s.modChan i f).resend = s.resend := rfl
@[simp] theorem State.modChan_arbiter (i : ChanId) (f : Channel → Channel) : (s.modChan i f).arbiter = s.arbiter := rfl
@[simp] theorem State.modChan_pending (i : ChanId) (f : Channel → Channel) : (s.modChan i f).pending = s.pending := rfl
@[simp] theorem State.modChan_stopRequests (i : ChanId) (f : Channel → Channel) : (s.modChan i f).stopRequests = s.stopRequests := rfl
@[simp] theorem State.modChan_ring (i : ChanId) (f : Channel → Channel) (j : ChanId) : (s.modChan i f).ring j = s.ring j := rfl

/-- What `modChan` wrote at an index is read there. -/
@[simp] theorem State.modChan_chan_same (i : ChanId) (f : Channel → Channel) : (s.modChan i f).chan i = f (s.chan i) := by
  simp [State.modChan, State.chan]

/-- Every other index reads as before. -/
theorem State.modChan_chan_ne (i j : ChanId) (f : Channel → Channel) (h : j ≠ i) : (s.modChan i f).chan j = s.chan j := by
  have h' : i.val ≠ j.val := fun e => h (Fin.ext e.symm)
  simp [State.modChan, State.chan, Vector.getElem_set_ne, h']

/-- Reading any index after `modChan`. -/
theorem State.modChan_chan (i j : ChanId) (f : Channel → Channel) :
    (s.modChan i f).chan j = if j = i then f (s.chan i) else s.chan j := by
  split
  · next h => rw [h, State.modChan_chan_same]
  · next h => exact State.modChan_chan_ne s i j f h

/-! ## modBank -/

@[simp] theorem State.modBank_link (i : BankId) (f : Bank → Bank) : (s.modBank i f).link = s.link := rfl
@[simp] theorem State.modBank_channels (i : BankId) (f : Bank → Bank) : (s.modBank i f).channels = s.channels := rfl
@[simp] theorem State.modBank_chan (i : BankId) (f : Bank → Bank) (j : ChanId) : (s.modBank i f).chan j = s.chan j := rfl
@[simp] theorem State.modBank_coeffMem (i : BankId) (f : Bank → Bank) : (s.modBank i f).coeffMem = s.coeffMem := rfl
@[simp] theorem State.modBank_pool (i : BankId) (f : Bank → Bank) : (s.modBank i f).pool = s.pool := rfl
@[simp] theorem State.modBank_lanes (i : BankId) (f : Bank → Bank) : (s.modBank i f).lanes = s.lanes := rfl
@[simp] theorem State.modBank_lane (i : BankId) (f : Bank → Bank) (j : LaneId) : (s.modBank i f).lane j = s.lane j := rfl
@[simp] theorem State.modBank_engine (i : BankId) (f : Bank → Bank) : (s.modBank i f).engine = s.engine := rfl
@[simp] theorem State.modBank_watches (i : BankId) (f : Bank → Bank) : (s.modBank i f).watches = s.watches := rfl
@[simp] theorem State.modBank_watch (i : BankId) (f : Bank → Bank) (j : WatchId) : (s.modBank i f).watch j = s.watch j := rfl
@[simp] theorem State.modBank_delivery (i : BankId) (f : Bank → Bank) : (s.modBank i f).delivery = s.delivery := rfl
@[simp] theorem State.modBank_deliv (i : BankId) (f : Bank → Bank) (j : ChanId) : (s.modBank i f).deliv j = s.deliv j := rfl
@[simp] theorem State.modBank_resend (i : BankId) (f : Bank → Bank) : (s.modBank i f).resend = s.resend := rfl
@[simp] theorem State.modBank_arbiter (i : BankId) (f : Bank → Bank) : (s.modBank i f).arbiter = s.arbiter := rfl
@[simp] theorem State.modBank_pending (i : BankId) (f : Bank → Bank) : (s.modBank i f).pending = s.pending := rfl
@[simp] theorem State.modBank_stopRequests (i : BankId) (f : Bank → Bank) : (s.modBank i f).stopRequests = s.stopRequests := rfl
@[simp] theorem State.modBank_ring (i : BankId) (f : Bank → Bank) (j : ChanId) : (s.modBank i f).ring j = s.ring j := rfl

/-- What `modBank` wrote at an index is read there. -/
@[simp] theorem State.modBank_bank_same (i : BankId) (f : Bank → Bank) : (s.modBank i f).bank i = f (s.bank i) := by
  simp [State.modBank, State.bank]

/-- Every other index reads as before. -/
theorem State.modBank_bank_ne (i j : BankId) (f : Bank → Bank) (h : j ≠ i) : (s.modBank i f).bank j = s.bank j := by
  have h' : i.val ≠ j.val := fun e => h (Fin.ext e.symm)
  simp [State.modBank, State.bank, Vector.getElem_set_ne, h']

/-- Reading any index after `modBank`. -/
theorem State.modBank_bank (i j : BankId) (f : Bank → Bank) :
    (s.modBank i f).bank j = if j = i then f (s.bank i) else s.bank j := by
  split
  · next h => rw [h, State.modBank_bank_same]
  · next h => exact State.modBank_bank_ne s i j f h

/-! ## modLane -/

@[simp] theorem State.modLane_link (i : LaneId) (f : Lane → Lane) : (s.modLane i f).link = s.link := rfl
@[simp] theorem State.modLane_channels (i : LaneId) (f : Lane → Lane) : (s.modLane i f).channels = s.channels := rfl
@[simp] theorem State.modLane_chan (i : LaneId) (f : Lane → Lane) (j : ChanId) : (s.modLane i f).chan j = s.chan j := rfl
@[simp] theorem State.modLane_coeffMem (i : LaneId) (f : Lane → Lane) : (s.modLane i f).coeffMem = s.coeffMem := rfl
@[simp] theorem State.modLane_pool (i : LaneId) (f : Lane → Lane) : (s.modLane i f).pool = s.pool := rfl
@[simp] theorem State.modLane_banks (i : LaneId) (f : Lane → Lane) : (s.modLane i f).banks = s.banks := rfl
@[simp] theorem State.modLane_bank (i : LaneId) (f : Lane → Lane) (j : BankId) : (s.modLane i f).bank j = s.bank j := rfl
@[simp] theorem State.modLane_engine (i : LaneId) (f : Lane → Lane) : (s.modLane i f).engine = s.engine := rfl
@[simp] theorem State.modLane_watches (i : LaneId) (f : Lane → Lane) : (s.modLane i f).watches = s.watches := rfl
@[simp] theorem State.modLane_watch (i : LaneId) (f : Lane → Lane) (j : WatchId) : (s.modLane i f).watch j = s.watch j := rfl
@[simp] theorem State.modLane_delivery (i : LaneId) (f : Lane → Lane) : (s.modLane i f).delivery = s.delivery := rfl
@[simp] theorem State.modLane_deliv (i : LaneId) (f : Lane → Lane) (j : ChanId) : (s.modLane i f).deliv j = s.deliv j := rfl
@[simp] theorem State.modLane_resend (i : LaneId) (f : Lane → Lane) : (s.modLane i f).resend = s.resend := rfl
@[simp] theorem State.modLane_arbiter (i : LaneId) (f : Lane → Lane) : (s.modLane i f).arbiter = s.arbiter := rfl
@[simp] theorem State.modLane_pending (i : LaneId) (f : Lane → Lane) : (s.modLane i f).pending = s.pending := rfl
@[simp] theorem State.modLane_stopRequests (i : LaneId) (f : Lane → Lane) : (s.modLane i f).stopRequests = s.stopRequests := rfl
@[simp] theorem State.modLane_ring (i : LaneId) (f : Lane → Lane) (j : ChanId) : (s.modLane i f).ring j = s.ring j := rfl

/-- What `modLane` wrote at an index is read there. -/
@[simp] theorem State.modLane_lane_same (i : LaneId) (f : Lane → Lane) : (s.modLane i f).lane i = f (s.lane i) := by
  simp [State.modLane, State.lane]

/-- Every other index reads as before. -/
theorem State.modLane_lane_ne (i j : LaneId) (f : Lane → Lane) (h : j ≠ i) : (s.modLane i f).lane j = s.lane j := by
  have h' : i.val ≠ j.val := fun e => h (Fin.ext e.symm)
  simp [State.modLane, State.lane, Vector.getElem_set_ne, h']

/-- Reading any index after `modLane`. -/
theorem State.modLane_lane (i j : LaneId) (f : Lane → Lane) :
    (s.modLane i f).lane j = if j = i then f (s.lane i) else s.lane j := by
  split
  · next h => rw [h, State.modLane_lane_same]
  · next h => exact State.modLane_lane_ne s i j f h

/-! ## modWatch -/

@[simp] theorem State.modWatch_link (i : WatchId) (f : Watch → Watch) : (s.modWatch i f).link = s.link := rfl
@[simp] theorem State.modWatch_channels (i : WatchId) (f : Watch → Watch) : (s.modWatch i f).channels = s.channels := rfl
@[simp] theorem State.modWatch_chan (i : WatchId) (f : Watch → Watch) (j : ChanId) : (s.modWatch i f).chan j = s.chan j := rfl
@[simp] theorem State.modWatch_coeffMem (i : WatchId) (f : Watch → Watch) : (s.modWatch i f).coeffMem = s.coeffMem := rfl
@[simp] theorem State.modWatch_pool (i : WatchId) (f : Watch → Watch) : (s.modWatch i f).pool = s.pool := rfl
@[simp] theorem State.modWatch_banks (i : WatchId) (f : Watch → Watch) : (s.modWatch i f).banks = s.banks := rfl
@[simp] theorem State.modWatch_bank (i : WatchId) (f : Watch → Watch) (j : BankId) : (s.modWatch i f).bank j = s.bank j := rfl
@[simp] theorem State.modWatch_lanes (i : WatchId) (f : Watch → Watch) : (s.modWatch i f).lanes = s.lanes := rfl
@[simp] theorem State.modWatch_lane (i : WatchId) (f : Watch → Watch) (j : LaneId) : (s.modWatch i f).lane j = s.lane j := rfl
@[simp] theorem State.modWatch_engine (i : WatchId) (f : Watch → Watch) : (s.modWatch i f).engine = s.engine := rfl
@[simp] theorem State.modWatch_delivery (i : WatchId) (f : Watch → Watch) : (s.modWatch i f).delivery = s.delivery := rfl
@[simp] theorem State.modWatch_deliv (i : WatchId) (f : Watch → Watch) (j : ChanId) : (s.modWatch i f).deliv j = s.deliv j := rfl
@[simp] theorem State.modWatch_resend (i : WatchId) (f : Watch → Watch) : (s.modWatch i f).resend = s.resend := rfl
@[simp] theorem State.modWatch_arbiter (i : WatchId) (f : Watch → Watch) : (s.modWatch i f).arbiter = s.arbiter := rfl
@[simp] theorem State.modWatch_pending (i : WatchId) (f : Watch → Watch) : (s.modWatch i f).pending = s.pending := rfl
@[simp] theorem State.modWatch_stopRequests (i : WatchId) (f : Watch → Watch) : (s.modWatch i f).stopRequests = s.stopRequests := rfl
@[simp] theorem State.modWatch_ring (i : WatchId) (f : Watch → Watch) (j : ChanId) : (s.modWatch i f).ring j = s.ring j := rfl

/-- What `modWatch` wrote at an index is read there. -/
@[simp] theorem State.modWatch_watch_same (i : WatchId) (f : Watch → Watch) : (s.modWatch i f).watch i = f (s.watch i) := by
  simp [State.modWatch, State.watch]

/-- Every other index reads as before. -/
theorem State.modWatch_watch_ne (i j : WatchId) (f : Watch → Watch) (h : j ≠ i) : (s.modWatch i f).watch j = s.watch j := by
  have h' : i.val ≠ j.val := fun e => h (Fin.ext e.symm)
  simp [State.modWatch, State.watch, Vector.getElem_set_ne, h']

/-- Reading any index after `modWatch`. -/
theorem State.modWatch_watch (i j : WatchId) (f : Watch → Watch) :
    (s.modWatch i f).watch j = if j = i then f (s.watch i) else s.watch j := by
  split
  · next h => rw [h, State.modWatch_watch_same]
  · next h => exact State.modWatch_watch_ne s i j f h

/-! ## modDeliv -/

@[simp] theorem State.modDeliv_link (i : ChanId) (f : ChanDelivery → ChanDelivery) : (s.modDeliv i f).link = s.link := rfl
@[simp] theorem State.modDeliv_channels (i : ChanId) (f : ChanDelivery → ChanDelivery) : (s.modDeliv i f).channels = s.channels := rfl
@[simp] theorem State.modDeliv_chan (i : ChanId) (f : ChanDelivery → ChanDelivery) (j : ChanId) : (s.modDeliv i f).chan j = s.chan j := rfl
@[simp] theorem State.modDeliv_coeffMem (i : ChanId) (f : ChanDelivery → ChanDelivery) : (s.modDeliv i f).coeffMem = s.coeffMem := rfl
@[simp] theorem State.modDeliv_pool (i : ChanId) (f : ChanDelivery → ChanDelivery) : (s.modDeliv i f).pool = s.pool := rfl
@[simp] theorem State.modDeliv_banks (i : ChanId) (f : ChanDelivery → ChanDelivery) : (s.modDeliv i f).banks = s.banks := rfl
@[simp] theorem State.modDeliv_bank (i : ChanId) (f : ChanDelivery → ChanDelivery) (j : BankId) : (s.modDeliv i f).bank j = s.bank j := rfl
@[simp] theorem State.modDeliv_lanes (i : ChanId) (f : ChanDelivery → ChanDelivery) : (s.modDeliv i f).lanes = s.lanes := rfl
@[simp] theorem State.modDeliv_lane (i : ChanId) (f : ChanDelivery → ChanDelivery) (j : LaneId) : (s.modDeliv i f).lane j = s.lane j := rfl
@[simp] theorem State.modDeliv_engine (i : ChanId) (f : ChanDelivery → ChanDelivery) : (s.modDeliv i f).engine = s.engine := rfl
@[simp] theorem State.modDeliv_watches (i : ChanId) (f : ChanDelivery → ChanDelivery) : (s.modDeliv i f).watches = s.watches := rfl
@[simp] theorem State.modDeliv_watch (i : ChanId) (f : ChanDelivery → ChanDelivery) (j : WatchId) : (s.modDeliv i f).watch j = s.watch j := rfl
@[simp] theorem State.modDeliv_resend (i : ChanId) (f : ChanDelivery → ChanDelivery) : (s.modDeliv i f).resend = s.resend := rfl
@[simp] theorem State.modDeliv_arbiter (i : ChanId) (f : ChanDelivery → ChanDelivery) : (s.modDeliv i f).arbiter = s.arbiter := rfl
@[simp] theorem State.modDeliv_pending (i : ChanId) (f : ChanDelivery → ChanDelivery) : (s.modDeliv i f).pending = s.pending := rfl
@[simp] theorem State.modDeliv_stopRequests (i : ChanId) (f : ChanDelivery → ChanDelivery) : (s.modDeliv i f).stopRequests = s.stopRequests := rfl
@[simp] theorem State.modDeliv_ring (i : ChanId) (f : ChanDelivery → ChanDelivery) (j : ChanId) : (s.modDeliv i f).ring j = s.ring j := rfl

/-- What `modDeliv` wrote at an index is read there. -/
@[simp] theorem State.modDeliv_deliv_same (i : ChanId) (f : ChanDelivery → ChanDelivery) : (s.modDeliv i f).deliv i = f (s.deliv i) := by
  simp [State.modDeliv, State.deliv]

/-- Every other index reads as before. -/
theorem State.modDeliv_deliv_ne (i j : ChanId) (f : ChanDelivery → ChanDelivery) (h : j ≠ i) : (s.modDeliv i f).deliv j = s.deliv j := by
  have h' : i.val ≠ j.val := fun e => h (Fin.ext e.symm)
  simp [State.modDeliv, State.deliv, Vector.getElem_set_ne, h']

/-- Reading any index after `modDeliv`. -/
theorem State.modDeliv_deliv (i j : ChanId) (f : ChanDelivery → ChanDelivery) :
    (s.modDeliv i f).deliv j = if j = i then f (s.deliv i) else s.deliv j := by
  split
  · next h => rw [h, State.modDeliv_deliv_same]
  · next h => exact State.modDeliv_deliv_ne s i j f h

/-! ## modRing -/

@[simp] theorem State.modRing_link (i : ChanId) (f : List StoredWord → List StoredWord) : (s.modRing i f).link = s.link := rfl
@[simp] theorem State.modRing_channels (i : ChanId) (f : List StoredWord → List StoredWord) : (s.modRing i f).channels = s.channels := rfl
@[simp] theorem State.modRing_chan (i : ChanId) (f : List StoredWord → List StoredWord) (j : ChanId) : (s.modRing i f).chan j = s.chan j := rfl
@[simp] theorem State.modRing_coeffMem (i : ChanId) (f : List StoredWord → List StoredWord) : (s.modRing i f).coeffMem = s.coeffMem := rfl
@[simp] theorem State.modRing_pool (i : ChanId) (f : List StoredWord → List StoredWord) : (s.modRing i f).pool = s.pool := rfl
@[simp] theorem State.modRing_banks (i : ChanId) (f : List StoredWord → List StoredWord) : (s.modRing i f).banks = s.banks := rfl
@[simp] theorem State.modRing_bank (i : ChanId) (f : List StoredWord → List StoredWord) (j : BankId) : (s.modRing i f).bank j = s.bank j := rfl
@[simp] theorem State.modRing_lanes (i : ChanId) (f : List StoredWord → List StoredWord) : (s.modRing i f).lanes = s.lanes := rfl
@[simp] theorem State.modRing_lane (i : ChanId) (f : List StoredWord → List StoredWord) (j : LaneId) : (s.modRing i f).lane j = s.lane j := rfl
@[simp] theorem State.modRing_watches (i : ChanId) (f : List StoredWord → List StoredWord) : (s.modRing i f).watches = s.watches := rfl
@[simp] theorem State.modRing_watch (i : ChanId) (f : List StoredWord → List StoredWord) (j : WatchId) : (s.modRing i f).watch j = s.watch j := rfl
@[simp] theorem State.modRing_delivery (i : ChanId) (f : List StoredWord → List StoredWord) : (s.modRing i f).delivery = s.delivery := rfl
@[simp] theorem State.modRing_deliv (i : ChanId) (f : List StoredWord → List StoredWord) (j : ChanId) : (s.modRing i f).deliv j = s.deliv j := rfl
@[simp] theorem State.modRing_resend (i : ChanId) (f : List StoredWord → List StoredWord) : (s.modRing i f).resend = s.resend := rfl
@[simp] theorem State.modRing_arbiter (i : ChanId) (f : List StoredWord → List StoredWord) : (s.modRing i f).arbiter = s.arbiter := rfl
@[simp] theorem State.modRing_pending (i : ChanId) (f : List StoredWord → List StoredWord) : (s.modRing i f).pending = s.pending := rfl
@[simp] theorem State.modRing_stopRequests (i : ChanId) (f : List StoredWord → List StoredWord) : (s.modRing i f).stopRequests = s.stopRequests := rfl
@[simp] theorem State.modRing_lastServed (i : ChanId) (f : List StoredWord → List StoredWord) : (s.modRing i f).engine.lastServed = s.engine.lastServed := rfl
@[simp] theorem State.modRing_dispatch (i : ChanId) (f : List StoredWord → List StoredWord) : (s.modRing i f).engine.dispatch = s.engine.dispatch := rfl

/-- What `modRing` wrote at an index is read there. -/
@[simp] theorem State.modRing_ring_same (i : ChanId) (f : List StoredWord → List StoredWord) : (s.modRing i f).ring i = f (s.ring i) := by
  simp [State.modRing, State.ring]

/-- Every other index reads as before. -/
theorem State.modRing_ring_ne (i j : ChanId) (f : List StoredWord → List StoredWord) (h : j ≠ i) : (s.modRing i f).ring j = s.ring j := by
  have h' : i.val ≠ j.val := fun e => h (Fin.ext e.symm)
  simp [State.modRing, State.ring, Vector.getElem_set_ne, h']

/-- Reading any index after `modRing`. -/
theorem State.modRing_ring (i j : ChanId) (f : List StoredWord → List StoredWord) :
    (s.modRing i f).ring j = if j = i then f (s.ring i) else s.ring j := by
  split
  · next h => rw [h, State.modRing_ring_same]
  · next h => exact State.modRing_ring_ne s i j f h

/-! ## setDispatch -/

@[simp] theorem State.setDispatch_link (d : Option Dispatch) : (s.setDispatch d).link = s.link := rfl
@[simp] theorem State.setDispatch_channels (d : Option Dispatch) : (s.setDispatch d).channels = s.channels := rfl
@[simp] theorem State.setDispatch_chan (d : Option Dispatch) (j : ChanId) : (s.setDispatch d).chan j = s.chan j := rfl
@[simp] theorem State.setDispatch_coeffMem (d : Option Dispatch) : (s.setDispatch d).coeffMem = s.coeffMem := rfl
@[simp] theorem State.setDispatch_pool (d : Option Dispatch) : (s.setDispatch d).pool = s.pool := rfl
@[simp] theorem State.setDispatch_banks (d : Option Dispatch) : (s.setDispatch d).banks = s.banks := rfl
@[simp] theorem State.setDispatch_bank (d : Option Dispatch) (j : BankId) : (s.setDispatch d).bank j = s.bank j := rfl
@[simp] theorem State.setDispatch_lanes (d : Option Dispatch) : (s.setDispatch d).lanes = s.lanes := rfl
@[simp] theorem State.setDispatch_lane (d : Option Dispatch) (j : LaneId) : (s.setDispatch d).lane j = s.lane j := rfl
@[simp] theorem State.setDispatch_watches (d : Option Dispatch) : (s.setDispatch d).watches = s.watches := rfl
@[simp] theorem State.setDispatch_watch (d : Option Dispatch) (j : WatchId) : (s.setDispatch d).watch j = s.watch j := rfl
@[simp] theorem State.setDispatch_delivery (d : Option Dispatch) : (s.setDispatch d).delivery = s.delivery := rfl
@[simp] theorem State.setDispatch_deliv (d : Option Dispatch) (j : ChanId) : (s.setDispatch d).deliv j = s.deliv j := rfl
@[simp] theorem State.setDispatch_resend (d : Option Dispatch) : (s.setDispatch d).resend = s.resend := rfl
@[simp] theorem State.setDispatch_arbiter (d : Option Dispatch) : (s.setDispatch d).arbiter = s.arbiter := rfl
@[simp] theorem State.setDispatch_pending (d : Option Dispatch) : (s.setDispatch d).pending = s.pending := rfl
@[simp] theorem State.setDispatch_stopRequests (d : Option Dispatch) : (s.setDispatch d).stopRequests = s.stopRequests := rfl
@[simp] theorem State.setDispatch_dispatch (d : Option Dispatch) : (s.setDispatch d).engine.dispatch = d := rfl
@[simp] theorem State.setDispatch_lastServed (d : Option Dispatch) : (s.setDispatch d).engine.lastServed = s.engine.lastServed := rfl
@[simp] theorem State.setDispatch_ring (d : Option Dispatch) (j : ChanId) : (s.setDispatch d).ring j = s.ring j := rfl

/-! ## modLink -/

@[simp] theorem State.modLink_channels (f : Link → Link) : (s.modLink f).channels = s.channels := rfl
@[simp] theorem State.modLink_chan (f : Link → Link) (j : ChanId) : (s.modLink f).chan j = s.chan j := rfl
@[simp] theorem State.modLink_coeffMem (f : Link → Link) : (s.modLink f).coeffMem = s.coeffMem := rfl
@[simp] theorem State.modLink_pool (f : Link → Link) : (s.modLink f).pool = s.pool := rfl
@[simp] theorem State.modLink_banks (f : Link → Link) : (s.modLink f).banks = s.banks := rfl
@[simp] theorem State.modLink_bank (f : Link → Link) (j : BankId) : (s.modLink f).bank j = s.bank j := rfl
@[simp] theorem State.modLink_lanes (f : Link → Link) : (s.modLink f).lanes = s.lanes := rfl
@[simp] theorem State.modLink_lane (f : Link → Link) (j : LaneId) : (s.modLink f).lane j = s.lane j := rfl
@[simp] theorem State.modLink_engine (f : Link → Link) : (s.modLink f).engine = s.engine := rfl
@[simp] theorem State.modLink_watches (f : Link → Link) : (s.modLink f).watches = s.watches := rfl
@[simp] theorem State.modLink_watch (f : Link → Link) (j : WatchId) : (s.modLink f).watch j = s.watch j := rfl
@[simp] theorem State.modLink_delivery (f : Link → Link) : (s.modLink f).delivery = s.delivery := rfl
@[simp] theorem State.modLink_deliv (f : Link → Link) (j : ChanId) : (s.modLink f).deliv j = s.deliv j := rfl
@[simp] theorem State.modLink_resend (f : Link → Link) : (s.modLink f).resend = s.resend := rfl
@[simp] theorem State.modLink_arbiter (f : Link → Link) : (s.modLink f).arbiter = s.arbiter := rfl
@[simp] theorem State.modLink_pending (f : Link → Link) : (s.modLink f).pending = s.pending := rfl
@[simp] theorem State.modLink_stopRequests (f : Link → Link) : (s.modLink f).stopRequests = s.stopRequests := rfl
@[simp] theorem State.modLink_ring (f : Link → Link) (j : ChanId) : (s.modLink f).ring j = s.ring j := rfl
@[simp] theorem State.modLink_link (f : Link → Link) : (s.modLink f).link = f s.link := rfl

/-! ## modArb -/

@[simp] theorem State.modArb_link (f : Arbiter → Arbiter) : (s.modArb f).link = s.link := rfl
@[simp] theorem State.modArb_channels (f : Arbiter → Arbiter) : (s.modArb f).channels = s.channels := rfl
@[simp] theorem State.modArb_chan (f : Arbiter → Arbiter) (j : ChanId) : (s.modArb f).chan j = s.chan j := rfl
@[simp] theorem State.modArb_coeffMem (f : Arbiter → Arbiter) : (s.modArb f).coeffMem = s.coeffMem := rfl
@[simp] theorem State.modArb_pool (f : Arbiter → Arbiter) : (s.modArb f).pool = s.pool := rfl
@[simp] theorem State.modArb_banks (f : Arbiter → Arbiter) : (s.modArb f).banks = s.banks := rfl
@[simp] theorem State.modArb_bank (f : Arbiter → Arbiter) (j : BankId) : (s.modArb f).bank j = s.bank j := rfl
@[simp] theorem State.modArb_lanes (f : Arbiter → Arbiter) : (s.modArb f).lanes = s.lanes := rfl
@[simp] theorem State.modArb_lane (f : Arbiter → Arbiter) (j : LaneId) : (s.modArb f).lane j = s.lane j := rfl
@[simp] theorem State.modArb_engine (f : Arbiter → Arbiter) : (s.modArb f).engine = s.engine := rfl
@[simp] theorem State.modArb_watches (f : Arbiter → Arbiter) : (s.modArb f).watches = s.watches := rfl
@[simp] theorem State.modArb_watch (f : Arbiter → Arbiter) (j : WatchId) : (s.modArb f).watch j = s.watch j := rfl
@[simp] theorem State.modArb_delivery (f : Arbiter → Arbiter) : (s.modArb f).delivery = s.delivery := rfl
@[simp] theorem State.modArb_deliv (f : Arbiter → Arbiter) (j : ChanId) : (s.modArb f).deliv j = s.deliv j := rfl
@[simp] theorem State.modArb_resend (f : Arbiter → Arbiter) : (s.modArb f).resend = s.resend := rfl
@[simp] theorem State.modArb_pending (f : Arbiter → Arbiter) : (s.modArb f).pending = s.pending := rfl
@[simp] theorem State.modArb_stopRequests (f : Arbiter → Arbiter) : (s.modArb f).stopRequests = s.stopRequests := rfl
@[simp] theorem State.modArb_ring (f : Arbiter → Arbiter) (j : ChanId) : (s.modArb f).ring j = s.ring j := rfl
@[simp] theorem State.modArb_arbiter (f : Arbiter → Arbiter) : (s.modArb f).arbiter = f s.arbiter := rfl

/-! ## Batch slots of one delivery record -/

@[simp] theorem ChanDelivery.modSlot_slot_same (d : ChanDelivery) (b : BatchId) (f : BatchSlot → BatchSlot) :
    (d.modSlot b f).slot b = f (d.slot b) := by
  simp [ChanDelivery.modSlot, ChanDelivery.slot]

theorem ChanDelivery.modSlot_slot_ne (d : ChanDelivery) (b a : BatchId) (f : BatchSlot → BatchSlot) (h : a ≠ b) :
    (d.modSlot b f).slot a = d.slot a := by
  have h' : b.val ≠ a.val := fun e => h (Fin.ext e.symm)
  simp [ChanDelivery.modSlot, ChanDelivery.slot, Vector.getElem_set_ne, h']

theorem ChanDelivery.modSlot_slot (d : ChanDelivery) (b a : BatchId) (f : BatchSlot → BatchSlot) :
    (d.modSlot b f).slot a = if a = b then f (d.slot b) else d.slot a := by
  split
  · next h => rw [h, ChanDelivery.modSlot_slot_same]
  · next h => exact ChanDelivery.modSlot_slot_ne d b a f h

@[simp] theorem ChanDelivery.modSlot_seqCounter (d : ChanDelivery) (b : BatchId) (f : BatchSlot → BatchSlot) :
    (d.modSlot b f).seqCounter = d.seqCounter := rfl
@[simp] theorem ChanDelivery.modSlot_pendingLost (d : ChanDelivery) (b : BatchId) (f : BatchSlot → BatchSlot) :
    (d.modSlot b f).pendingLost = d.pendingLost := rfl
@[simp] theorem ChanDelivery.modSlot_readyOrder (d : ChanDelivery) (b : BatchId) (f : BatchSlot → BatchSlot) :
    (d.modSlot b f).readyOrder = d.readyOrder := rfl
@[simp] theorem ChanDelivery.modSlot_inflightOrder (d : ChanDelivery) (b : BatchId) (f : BatchSlot → BatchSlot) :
    (d.modSlot b f).inflightOrder = d.inflightOrder := rfl
@[simp] theorem ChanDelivery.modSlot_drainWatch (d : ChanDelivery) (b : BatchId) (f : BatchSlot → BatchSlot) :
    (d.modSlot b f).drainWatch = d.drainWatch := rfl

/-! ## Rotation lists of the arbiter -/

@[simp] theorem Arbiter.modList_list_same (a : Arbiter) (k : ClassId) (f : List ChanId → List ChanId) :
    (a.modList k f).list k = f (a.list k) := by
  simp [Arbiter.modList, Arbiter.list]

theorem Arbiter.modList_list_ne (a : Arbiter) (k j : ClassId) (f : List ChanId → List ChanId) (h : j ≠ k) :
    (a.modList k f).list j = a.list j := by
  have h' : k.val ≠ j.val := fun e => h (Fin.ext e.symm)
  simp [Arbiter.modList, Arbiter.list, Vector.getElem_set_ne, h']

@[simp] theorem Arbiter.modList_transmission (a : Arbiter) (k : ClassId) (f : List ChanId → List ChanId) :
    (a.modList k f).transmission = a.transmission := rfl
@[simp] theorem Arbiter.modList_notices (a : Arbiter) (k : ClassId) (f : List ChanId → List ChanId) :
    (a.modList k f).notices = a.notices := rfl
@[simp] theorem Arbiter.modList_missed (a : Arbiter) (k : ClassId) (f : List ChanId → List ChanId) :
    (a.modList k f).missed = a.missed := rfl

/-! ## Records after a reset of the blocks -/

@[simp] theorem State.resetBlocks_link : s.resetBlocks.link = s.link := rfl
@[simp] theorem State.resetBlocks_coeffMem : s.resetBlocks.coeffMem = s.coeffMem := rfl
@[simp] theorem State.resetBlocks_pending : s.resetBlocks.pending = s.pending := rfl
@[simp] theorem State.resetBlocks_stopRequests : s.resetBlocks.stopRequests = [] := rfl
@[simp] theorem State.resetBlocks_ring (c : ChanId) : s.resetBlocks.ring c = s.ring c := rfl
@[simp] theorem State.resetBlocks_dispatch : s.resetBlocks.engine.dispatch = none := rfl
@[simp] theorem State.resetBlocks_chan (c : ChanId) : s.resetBlocks.chan c = Channel.reset := by
  simp [State.resetBlocks, State.chan, State.reset]
@[simp] theorem State.resetBlocks_bank (b : BankId) : s.resetBlocks.bank b = Bank.free := by
  simp [State.resetBlocks, State.bank, State.reset]
@[simp] theorem State.resetBlocks_lane (l : LaneId) : s.resetBlocks.lane l = Lane.reset := by
  simp [State.resetBlocks, State.lane, State.reset]
@[simp] theorem State.resetBlocks_watch (w : WatchId) : s.resetBlocks.watch w = Watch.reset := by
  simp [State.resetBlocks, State.watch, State.reset]
@[simp] theorem State.resetBlocks_deliv (c : ChanId) : s.resetBlocks.deliv c = ChanDelivery.reset := by
  simp [State.resetBlocks, State.deliv, State.reset]

end Sys2Proof.Machine
end

