-- ==== Sys2Proof/Laws/Ops.lean ====
section
/-! SUPPORT. What the shared operations do, said once: the notice queue, the taking of a command with its
reply, reading what a queue or a lowest-slot search found. -/

namespace Sys2Proof.Machine

/-! ## Notices -/

/-- A notice raised changes the arbiter alone. -/
theorem State.raise_frame (s : State) (n : Notice) : s.raise n = { s with arbiter := (s.raise n).arbiter } := rfl

/-- Notices raised change the arbiter alone. -/
theorem State.raiseAll_frame (s : State) (ns : List Notice) :
    s.raiseAll ns = { s with arbiter := (s.raiseAll ns).arbiter } := by
  unfold State.raiseAll
  induction ns generalizing s with
  | nil => rfl
  | cons n ns ih => rw [List.foldl_cons, ih (s.raise n), State.raise_frame s n]

@[simp] theorem State.raiseAll_nil (s : State) : s.raiseAll [] = s := rfl
@[simp] theorem State.raiseAll_cons (s : State) (n : Notice) (ns : List Notice) :
    s.raiseAll (n :: ns) = (s.raise n).raiseAll ns := rfl
theorem State.raiseAll_append (s : State) (ns ms : List Notice) :
    s.raiseAll (ns ++ ms) = (s.raiseAll ns).raiseAll ms := by
  simp [State.raiseAll]

@[simp] theorem State.raise_link (s : State) (n : Notice) : (s.raise n).link = s.link := rfl
@[simp] theorem State.raise_channels (s : State) (n : Notice) : (s.raise n).channels = s.channels := rfl
@[simp] theorem State.raise_coeffMem (s : State) (n : Notice) : (s.raise n).coeffMem = s.coeffMem := rfl
@[simp] theorem State.raise_pool (s : State) (n : Notice) : (s.raise n).pool = s.pool := rfl
@[simp] theorem State.raise_banks (s : State) (n : Notice) : (s.raise n).banks = s.banks := rfl
@[simp] theorem State.raise_lanes (s : State) (n : Notice) : (s.raise n).lanes = s.lanes := rfl
@[simp] theorem State.raise_engine (s : State) (n : Notice) : (s.raise n).engine = s.engine := rfl
@[simp] theorem State.raise_watches (s : State) (n : Notice) : (s.raise n).watches = s.watches := rfl
@[simp] theorem State.raise_delivery (s : State) (n : Notice) : (s.raise n).delivery = s.delivery := rfl
@[simp] theorem State.raise_resend (s : State) (n : Notice) : (s.raise n).resend = s.resend := rfl
@[simp] theorem State.raise_pending (s : State) (n : Notice) : (s.raise n).pending = s.pending := rfl
@[simp] theorem State.raise_stopRequests (s : State) (n : Notice) : (s.raise n).stopRequests = s.stopRequests := rfl
@[simp] theorem State.raise_chan (s : State) (n : Notice) (j : ChanId) : (s.raise n).chan j = s.chan j := rfl
@[simp] theorem State.raise_bank (s : State) (n : Notice) (j : BankId) : (s.raise n).bank j = s.bank j := rfl
@[simp] theorem State.raise_lane (s : State) (n : Notice) (j : LaneId) : (s.raise n).lane j = s.lane j := rfl
@[simp] theorem State.raise_watch (s : State) (n : Notice) (j : WatchId) : (s.raise n).watch j = s.watch j := rfl
@[simp] theorem State.raise_deliv (s : State) (n : Notice) (j : ChanId) : (s.raise n).deliv j = s.deliv j := rfl
@[simp] theorem State.raise_ring (s : State) (n : Notice) (j : ChanId) : (s.raise n).ring j = s.ring j := rfl

@[simp] theorem State.raiseAll_link (s : State) (ns : List Notice) : (s.raiseAll ns).link = s.link := by rw [State.raiseAll_frame]
@[simp] theorem State.raiseAll_channels (s : State) (ns : List Notice) : (s.raiseAll ns).channels = s.channels := by rw [State.raiseAll_frame]
@[simp] theorem State.raiseAll_coeffMem (s : State) (ns : List Notice) : (s.raiseAll ns).coeffMem = s.coeffMem := by rw [State.raiseAll_frame]
@[simp] theorem State.raiseAll_pool (s : State) (ns : List Notice) : (s.raiseAll ns).pool = s.pool := by rw [State.raiseAll_frame]
@[simp] theorem State.raiseAll_banks (s : State) (ns : List Notice) : (s.raiseAll ns).banks = s.banks := by rw [State.raiseAll_frame]
@[simp] theorem State.raiseAll_lanes (s : State) (ns : List Notice) : (s.raiseAll ns).lanes = s.lanes := by rw [State.raiseAll_frame]
@[simp] theorem State.raiseAll_engine (s : State) (ns : List Notice) : (s.raiseAll ns).engine = s.engine := by rw [State.raiseAll_frame]
@[simp] theorem State.raiseAll_watches (s : State) (ns : List Notice) : (s.raiseAll ns).watches = s.watches := by rw [State.raiseAll_frame]
@[simp] theorem State.raiseAll_delivery (s : State) (ns : List Notice) : (s.raiseAll ns).delivery = s.delivery := by rw [State.raiseAll_frame]
@[simp] theorem State.raiseAll_resend (s : State) (ns : List Notice) : (s.raiseAll ns).resend = s.resend := by rw [State.raiseAll_frame]
@[simp] theorem State.raiseAll_pending (s : State) (ns : List Notice) : (s.raiseAll ns).pending = s.pending := by rw [State.raiseAll_frame]
@[simp] theorem State.raiseAll_stopRequests (s : State) (ns : List Notice) : (s.raiseAll ns).stopRequests = s.stopRequests := by rw [State.raiseAll_frame]
@[simp] theorem State.raiseAll_chan (s : State) (ns : List Notice) (j : ChanId) : (s.raiseAll ns).chan j = s.chan j := by rw [State.raiseAll_frame]; rfl
@[simp] theorem State.raiseAll_bank (s : State) (ns : List Notice) (j : BankId) : (s.raiseAll ns).bank j = s.bank j := by rw [State.raiseAll_frame]; rfl
@[simp] theorem State.raiseAll_lane (s : State) (ns : List Notice) (j : LaneId) : (s.raiseAll ns).lane j = s.lane j := by rw [State.raiseAll_frame]; rfl
@[simp] theorem State.raiseAll_watch (s : State) (ns : List Notice) (j : WatchId) : (s.raiseAll ns).watch j = s.watch j := by rw [State.raiseAll_frame]; rfl
@[simp] theorem State.raiseAll_deliv (s : State) (ns : List Notice) (j : ChanId) : (s.raiseAll ns).deliv j = s.deliv j := by rw [State.raiseAll_frame]; rfl
@[simp] theorem State.raiseAll_ring (s : State) (ns : List Notice) (j : ChanId) : (s.raiseAll ns).ring j = s.ring j := by rw [State.raiseAll_frame]; rfl

/-- What is raised leaves the transmission and the rotation lists, and keeps the queue within 16. -/
theorem State.raise_arbiter (s : State) (n : Notice) :
    (s.raise n).arbiter.transmission = s.arbiter.transmission ∧
      (s.raise n).arbiter.rotation = s.arbiter.rotation ∧
      (s.arbiter.notices.length ≤ 16 → (s.raise n).arbiter.notices.length ≤ 16) := by
  simp only [State.raise, State.modArb]
  split
  · next h =>
    refine ⟨rfl, rfl, fun _ => ?_⟩
    simp only [List.length_append, List.length_singleton]
    exact h
  · exact ⟨rfl, rfl, id⟩

theorem State.raiseAll_arbiter (s : State) (ns : List Notice) :
    (s.raiseAll ns).arbiter.transmission = s.arbiter.transmission ∧
      (s.raiseAll ns).arbiter.rotation = s.arbiter.rotation ∧
      (s.arbiter.notices.length ≤ 16 → (s.raiseAll ns).arbiter.notices.length ≤ 16) := by
  induction ns generalizing s with
  | nil => exact ⟨rfl, rfl, id⟩
  | cons n ns ih =>
    obtain ⟨h1, h2, h3⟩ := State.raise_arbiter s n
    obtain ⟨i1, i2, i3⟩ := ih (s.raise n)
    exact ⟨i1.trans h1, i2.trans h2, fun h => i3 (h3 h)⟩

@[simp] theorem State.raiseAll_transmission (s : State) (ns : List Notice) :
    (s.raiseAll ns).arbiter.transmission = s.arbiter.transmission := (s.raiseAll_arbiter ns).1
@[simp] theorem State.raiseAll_rotation (s : State) (ns : List Notice) :
    (s.raiseAll ns).arbiter.rotation = s.arbiter.rotation := (s.raiseAll_arbiter ns).2.1

/-! ## The taking of a command -/

theorem State.canTake_iff (s : State) (f : Frame) : s.canTake f = true ↔ s.Takes f := by
  simp only [State.canTake, Bool.and_eq_true, beq_iff_eq, decide_eq_true_eq, Bool.not_eq_true']
  exact ⟨fun h => ⟨h.1.1, h.1.2, h.2⟩, fun h => ⟨⟨h.head, h.room⟩, h.running⟩⟩

/-- A frame that cannot be taken waits. -/
theorem State.take_waits {s : State} {c : Command} {tag : Byte} {p : List Byte} {owner : State → Answer}
    (h : ¬ s.Takes ⟨c.code, tag, p⟩) : s.take c tag p owner = s := by
  rw [State.take, if_neg (mt (s.canTake_iff _).1 h)]

/-- A frame that can be taken is judged, and the answer queued. -/
theorem State.take_judged {s : State} {c : Command} {tag : Byte} {p : List Byte} {owner : State → Answer}
    (h : s.Takes ⟨c.code, tag, p⟩) :
    s.take c tag p owner =
      ((s.popInbound.judgeCommand c p owner).state.raiseAll
        (s.popInbound.judgeCommand c p owner).raised).queueReply tag c.code
          (s.popInbound.judgeCommand c p owner).status (s.popInbound.judgeCommand c p owner).body := by
  rw [State.take, if_pos ((s.canTake_iff _).2 h)]

/-- A frame removed and a reply queued without more is the answered state. -/
theorem State.popInbound_queueReply (s : State) (tag type : Byte) (status : Status) (body : List Byte) :
    s.popInbound.queueReply tag type status body = s.answered tag type status body := rfl

/-- A taking whose owner's answer is known. -/
theorem State.take_owner {s : State} {c : Command} {tag : Byte} {p : List Byte} {owner : State → Answer}
    {a : Answer} (h : s.Takes ⟨c.code, tag, p⟩) (hl : lengthOk c p.length = true)
    (hr : reservedOk c p = true) (ha : owner s.popInbound = a) :
    s.take c tag p owner = (a.state.raiseAll a.raised).queueReply tag c.code a.status a.body := by
  rw [State.take_judged h]
  simp [State.judgeCommand, hl, hr, ha]

/-- A length that the type does not allow. -/
theorem State.take_badLength {s : State} {c : Command} {tag : Byte} {p : List Byte}
    {owner : State → Answer} (h : s.Takes ⟨c.code, tag, p⟩) (hl : lengthOk c p.length = false) :
    s.take c tag p owner = s.answered tag c.code .badLength [] := by
  rw [State.take_judged h]
  simp [State.judgeCommand, hl, State.popInbound_queueReply]

/-- A nonzero reserved byte or bit. -/
theorem State.take_reserved {s : State} {c : Command} {tag : Byte} {p : List Byte}
    {owner : State → Answer} (h : s.Takes ⟨c.code, tag, p⟩) (hl : lengthOk c p.length = true)
    (hr : reservedOk c p = false) :
    s.take c tag p owner = s.answered tag c.code .badArg (refusalBody c) := by
  rw [State.take_judged h]
  simp [State.judgeCommand, hl, hr, Answer.refuse, State.popInbound_queueReply]

/-- A refusal by the owner. -/
theorem State.take_refused {s : State} {c : Command} {tag : Byte} {p : List Byte} {owner : State → Answer}
    {status : Status} (h : s.Takes ⟨c.code, tag, p⟩) (hl : lengthOk c p.length = true)
    (hr : reservedOk c p = true) (ha : owner s.popInbound = Answer.refuse c status s.popInbound) :
    s.take c tag p owner = s.answered tag c.code status (refusalBody c) := by
  rw [State.take_owner h hl hr ha]
  simp [Answer.refuse, State.popInbound_queueReply]

/-! ## Number fields -/

theorem indexOf_eq_some {n : Nat} {b : Byte} {i : Fin n} : indexOf n b = some i ↔ b.toNat = i.val := by
  unfold indexOf
  split
  · next h => simp [Fin.ext_iff]
  · next h =>
    simp only [reduceCtorEq, false_iff]
    intro e
    exact h (e ▸ i.isLt)

theorem indexOf_eq_none {n : Nat} {b : Byte} : indexOf n b = none ↔ n ≤ b.toNat := by
  unfold indexOf
  split
  · next h => simp; omega
  · next h => simp; omega

theorem natByte_toNat {n : Nat} (h : n < 256) : (natByte n).toNat = n := by
  simp [natByte, BitVec.toNat_ofNat, Nat.mod_eq_of_lt h]

/-- The byte of an index reads back as that index. -/
theorem indexOf_natByte {n : Nat} (i : Fin n) (h : n ≤ 256) : indexOf n (natByte i.val) = some i :=
  indexOf_eq_some.2 (natByte_toNat (lt_of_lt_of_le i.isLt h))

/-! ## The lowest slot in a state -/

theorem ChanDelivery.lowest_eq_none {d : ChanDelivery} {st : SlotState} :
    d.lowest st = none ↔ ∀ b, (d.slot b).state ≠ st := by
  simp [ChanDelivery.lowest, List.find?_eq_none]

/-- What the search finds is in the state, and no lower slot is. -/
theorem ChanDelivery.lowest_eq_some {d : ChanDelivery} {st : SlotState} {b : BatchId} :
    d.lowest st = some b ↔ (d.slot b).state = st ∧ ∀ x, x < b → (d.slot x).state ≠ st := by
  unfold ChanDelivery.lowest
  constructor
  · intro h
    refine ⟨by simpa using List.find?_some h, fun x hx => ?_⟩
    obtain ⟨-, l, r, e, hl⟩ := List.find?_eq_some_iff_append.1 h
    have hs : (l ++ b :: r).Pairwise (· < ·) := e ▸ List.pairwise_lt_finRange 4
    have hm : x ∈ l ++ b :: r := e ▸ List.mem_finRange x
    rcases List.mem_append.1 hm with hm | hm
    · simpa using hl x hm
    · have := (List.pairwise_append.1 hs).2.1
      rcases List.mem_cons.1 hm with rfl | hm
      · exact absurd hx (lt_irrefl _)
      · exact absurd hx (not_lt_of_gt ((List.pairwise_cons.1 this).1 x hm))
  · rintro ⟨h, hl⟩
    cases hf : (List.finRange 4).find? fun b => (d.slot b).state == st with
    | none => exact absurd h (by simpa using List.find?_eq_none.1 hf b (List.mem_finRange b))
    | some a =>
      have ha : (d.slot a).state = st := by simpa using List.find?_some hf
      rcases lt_trichotomy a b with hab | hab | hab
      · exact absurd ha (hl a hab)
      · rw [hab]
      · obtain ⟨-, l, r, e, hl'⟩ := List.find?_eq_some_iff_append.1 hf
        have hs : (l ++ a :: r).Pairwise (· < ·) := e ▸ List.pairwise_lt_finRange 4
        have hm : b ∈ l ++ a :: r := e ▸ List.mem_finRange b
        rcases List.mem_append.1 hm with hm | hm
        · exact absurd h (by simpa using hl' b hm)
        · rcases List.mem_cons.1 hm with rfl | hm
          · exact absurd hab (lt_irrefl _)
          · exact absurd hab (not_lt_of_gt ((List.pairwise_cons.1 (List.pairwise_append.1 hs).2.1).1 b hm))

/-- No slot is in a state exactly when their count is 0. -/
theorem ChanDelivery.count_eq_zero {d : ChanDelivery} {st : SlotState} :
    d.count st = 0 ↔ ∀ b, (d.slot b).state ≠ st := by
  simp [ChanDelivery.count, List.countP_eq_zero]

end Sys2Proof.Machine
end

