-- ==== Sys2Proof/Laws/Frames.lean ====
section
/-! SUPPORT. Which blocks each operation leaves alone: one lemma for each operation and each block that it does
not touch, and what an operation on one channel leaves of the others. -/

namespace Sys2Proof.Machine

variable (s : State)

/-! ## addRef -/

@[simp] theorem State.addRef_link (b : BankId) : (s.addRef b).link = s.link := rfl
@[simp] theorem State.addRef_channels (b : BankId) : (s.addRef b).channels = s.channels := rfl
@[simp] theorem State.addRef_coeffMem (b : BankId) : (s.addRef b).coeffMem = s.coeffMem := rfl
@[simp] theorem State.addRef_pool (b : BankId) : (s.addRef b).pool = s.pool := rfl
@[simp] theorem State.addRef_lanes (b : BankId) : (s.addRef b).lanes = s.lanes := rfl
@[simp] theorem State.addRef_engine (b : BankId) : (s.addRef b).engine = s.engine := rfl
@[simp] theorem State.addRef_watches (b : BankId) : (s.addRef b).watches = s.watches := rfl
@[simp] theorem State.addRef_delivery (b : BankId) : (s.addRef b).delivery = s.delivery := rfl
@[simp] theorem State.addRef_resend (b : BankId) : (s.addRef b).resend = s.resend := rfl
@[simp] theorem State.addRef_arbiter (b : BankId) : (s.addRef b).arbiter = s.arbiter := rfl
@[simp] theorem State.addRef_pending (b : BankId) : (s.addRef b).pending = s.pending := rfl
@[simp] theorem State.addRef_stopRequests (b : BankId) : (s.addRef b).stopRequests = s.stopRequests := rfl
@[simp] theorem State.addRef_chan (b : BankId) (j : ChanId) : (s.addRef b).chan j = s.chan j := by show (s.addRef b).channels[j.val] = _; rw [State.addRef_channels]; rfl
@[simp] theorem State.addRef_lane (b : BankId) (j : LaneId) : (s.addRef b).lane j = s.lane j := by show (s.addRef b).lanes[j.val] = _; rw [State.addRef_lanes]; rfl
@[simp] theorem State.addRef_watch (b : BankId) (j : WatchId) : (s.addRef b).watch j = s.watch j := by show (s.addRef b).watches[j.val] = _; rw [State.addRef_watches]; rfl
@[simp] theorem State.addRef_deliv (b : BankId) (j : ChanId) : (s.addRef b).deliv j = s.deliv j := by show (s.addRef b).delivery[j.val] = _; rw [State.addRef_delivery]; rfl
@[simp] theorem State.addRef_ring (b : BankId) (j : ChanId) : (s.addRef b).ring j = s.ring j := by show (s.addRef b).engine.rings[j.val] = _; rw [State.addRef_engine]; rfl

/-! ## dropRef -/

@[simp] theorem State.dropRef_link (b : BankId) : (s.dropRef b).link = s.link := rfl
@[simp] theorem State.dropRef_channels (b : BankId) : (s.dropRef b).channels = s.channels := rfl
@[simp] theorem State.dropRef_coeffMem (b : BankId) : (s.dropRef b).coeffMem = s.coeffMem := rfl
@[simp] theorem State.dropRef_pool (b : BankId) : (s.dropRef b).pool = s.pool := rfl
@[simp] theorem State.dropRef_lanes (b : BankId) : (s.dropRef b).lanes = s.lanes := rfl
@[simp] theorem State.dropRef_engine (b : BankId) : (s.dropRef b).engine = s.engine := rfl
@[simp] theorem State.dropRef_watches (b : BankId) : (s.dropRef b).watches = s.watches := rfl
@[simp] theorem State.dropRef_delivery (b : BankId) : (s.dropRef b).delivery = s.delivery := rfl
@[simp] theorem State.dropRef_resend (b : BankId) : (s.dropRef b).resend = s.resend := rfl
@[simp] theorem State.dropRef_arbiter (b : BankId) : (s.dropRef b).arbiter = s.arbiter := rfl
@[simp] theorem State.dropRef_pending (b : BankId) : (s.dropRef b).pending = s.pending := rfl
@[simp] theorem State.dropRef_stopRequests (b : BankId) : (s.dropRef b).stopRequests = s.stopRequests := rfl
@[simp] theorem State.dropRef_chan (b : BankId) (j : ChanId) : (s.dropRef b).chan j = s.chan j := by show (s.dropRef b).channels[j.val] = _; rw [State.dropRef_channels]; rfl
@[simp] theorem State.dropRef_lane (b : BankId) (j : LaneId) : (s.dropRef b).lane j = s.lane j := by show (s.dropRef b).lanes[j.val] = _; rw [State.dropRef_lanes]; rfl
@[simp] theorem State.dropRef_watch (b : BankId) (j : WatchId) : (s.dropRef b).watch j = s.watch j := by show (s.dropRef b).watches[j.val] = _; rw [State.dropRef_watches]; rfl
@[simp] theorem State.dropRef_deliv (b : BankId) (j : ChanId) : (s.dropRef b).deliv j = s.deliv j := by show (s.dropRef b).delivery[j.val] = _; rw [State.dropRef_delivery]; rfl
@[simp] theorem State.dropRef_ring (b : BankId) (j : ChanId) : (s.dropRef b).ring j = s.ring j := by show (s.dropRef b).engine.rings[j.val] = _; rw [State.dropRef_engine]; rfl

/-! ## dropRef? -/

@[simp] theorem State.dropRef?_link (o : Option BankId) : (s.dropRef? o).link = s.link := by cases o <;> rfl
@[simp] theorem State.dropRef?_channels (o : Option BankId) : (s.dropRef? o).channels = s.channels := by cases o <;> rfl
@[simp] theorem State.dropRef?_coeffMem (o : Option BankId) : (s.dropRef? o).coeffMem = s.coeffMem := by cases o <;> rfl
@[simp] theorem State.dropRef?_pool (o : Option BankId) : (s.dropRef? o).pool = s.pool := by cases o <;> rfl
@[simp] theorem State.dropRef?_lanes (o : Option BankId) : (s.dropRef? o).lanes = s.lanes := by cases o <;> rfl
@[simp] theorem State.dropRef?_engine (o : Option BankId) : (s.dropRef? o).engine = s.engine := by cases o <;> rfl
@[simp] theorem State.dropRef?_watches (o : Option BankId) : (s.dropRef? o).watches = s.watches := by cases o <;> rfl
@[simp] theorem State.dropRef?_delivery (o : Option BankId) : (s.dropRef? o).delivery = s.delivery := by cases o <;> rfl
@[simp] theorem State.dropRef?_resend (o : Option BankId) : (s.dropRef? o).resend = s.resend := by cases o <;> rfl
@[simp] theorem State.dropRef?_arbiter (o : Option BankId) : (s.dropRef? o).arbiter = s.arbiter := by cases o <;> rfl
@[simp] theorem State.dropRef?_pending (o : Option BankId) : (s.dropRef? o).pending = s.pending := by cases o <;> rfl
@[simp] theorem State.dropRef?_stopRequests (o : Option BankId) : (s.dropRef? o).stopRequests = s.stopRequests := by cases o <;> rfl
@[simp] theorem State.dropRef?_chan (o : Option BankId) (j : ChanId) : (s.dropRef? o).chan j = s.chan j := by show (s.dropRef? o).channels[j.val] = _; rw [State.dropRef?_channels]; rfl
@[simp] theorem State.dropRef?_lane (o : Option BankId) (j : LaneId) : (s.dropRef? o).lane j = s.lane j := by show (s.dropRef? o).lanes[j.val] = _; rw [State.dropRef?_lanes]; rfl
@[simp] theorem State.dropRef?_watch (o : Option BankId) (j : WatchId) : (s.dropRef? o).watch j = s.watch j := by show (s.dropRef? o).watches[j.val] = _; rw [State.dropRef?_watches]; rfl
@[simp] theorem State.dropRef?_deliv (o : Option BankId) (j : ChanId) : (s.dropRef? o).deliv j = s.deliv j := by show (s.dropRef? o).delivery[j.val] = _; rw [State.dropRef?_delivery]; rfl
@[simp] theorem State.dropRef?_ring (o : Option BankId) (j : ChanId) : (s.dropRef? o).ring j = s.ring j := by show (s.dropRef? o).engine.rings[j.val] = _; rw [State.dropRef?_engine]; rfl

/-! ## releaseStaged -/

@[simp] theorem State.releaseStaged_link (c : ChanId) : (s.releaseStaged c).link = s.link := by simp [State.releaseStaged]
@[simp] theorem State.releaseStaged_coeffMem (c : ChanId) : (s.releaseStaged c).coeffMem = s.coeffMem := by simp [State.releaseStaged]
@[simp] theorem State.releaseStaged_pool (c : ChanId) : (s.releaseStaged c).pool = s.pool := by simp [State.releaseStaged]
@[simp] theorem State.releaseStaged_lanes (c : ChanId) : (s.releaseStaged c).lanes = s.lanes := by simp [State.releaseStaged]
@[simp] theorem State.releaseStaged_engine (c : ChanId) : (s.releaseStaged c).engine = s.engine := by simp [State.releaseStaged]
@[simp] theorem State.releaseStaged_watches (c : ChanId) : (s.releaseStaged c).watches = s.watches := by simp [State.releaseStaged]
@[simp] theorem State.releaseStaged_delivery (c : ChanId) : (s.releaseStaged c).delivery = s.delivery := by simp [State.releaseStaged]
@[simp] theorem State.releaseStaged_resend (c : ChanId) : (s.releaseStaged c).resend = s.resend := by simp [State.releaseStaged]
@[simp] theorem State.releaseStaged_arbiter (c : ChanId) : (s.releaseStaged c).arbiter = s.arbiter := by simp [State.releaseStaged]
@[simp] theorem State.releaseStaged_pending (c : ChanId) : (s.releaseStaged c).pending = s.pending := by simp [State.releaseStaged]
@[simp] theorem State.releaseStaged_stopRequests (c : ChanId) : (s.releaseStaged c).stopRequests = s.stopRequests := by simp [State.releaseStaged]
@[simp] theorem State.releaseStaged_lane (c : ChanId) (j : LaneId) : (s.releaseStaged c).lane j = s.lane j := by show (s.releaseStaged c).lanes[j.val] = _; rw [State.releaseStaged_lanes]; rfl
@[simp] theorem State.releaseStaged_watch (c : ChanId) (j : WatchId) : (s.releaseStaged c).watch j = s.watch j := by show (s.releaseStaged c).watches[j.val] = _; rw [State.releaseStaged_watches]; rfl
@[simp] theorem State.releaseStaged_deliv (c : ChanId) (j : ChanId) : (s.releaseStaged c).deliv j = s.deliv j := by show (s.releaseStaged c).delivery[j.val] = _; rw [State.releaseStaged_delivery]; rfl
@[simp] theorem State.releaseStaged_ring (c : ChanId) (j : ChanId) : (s.releaseStaged c).ring j = s.ring j := by show (s.releaseStaged c).engine.rings[j.val] = _; rw [State.releaseStaged_engine]; rfl

/-! ## loseOutput -/

@[simp] theorem State.loseOutput_link (c : ChanId) : (s.loseOutput c).1.link = s.link := rfl
@[simp] theorem State.loseOutput_coeffMem (c : ChanId) : (s.loseOutput c).1.coeffMem = s.coeffMem := rfl
@[simp] theorem State.loseOutput_pool (c : ChanId) : (s.loseOutput c).1.pool = s.pool := rfl
@[simp] theorem State.loseOutput_banks (c : ChanId) : (s.loseOutput c).1.banks = s.banks := rfl
@[simp] theorem State.loseOutput_lanes (c : ChanId) : (s.loseOutput c).1.lanes = s.lanes := rfl
@[simp] theorem State.loseOutput_engine (c : ChanId) : (s.loseOutput c).1.engine = s.engine := rfl
@[simp] theorem State.loseOutput_watches (c : ChanId) : (s.loseOutput c).1.watches = s.watches := rfl
@[simp] theorem State.loseOutput_resend (c : ChanId) : (s.loseOutput c).1.resend = s.resend := rfl
@[simp] theorem State.loseOutput_arbiter (c : ChanId) : (s.loseOutput c).1.arbiter = s.arbiter := rfl
@[simp] theorem State.loseOutput_pending (c : ChanId) : (s.loseOutput c).1.pending = s.pending := rfl
@[simp] theorem State.loseOutput_stopRequests (c : ChanId) : (s.loseOutput c).1.stopRequests = s.stopRequests := rfl
@[simp] theorem State.loseOutput_bank (c : ChanId) (j : BankId) : (s.loseOutput c).1.bank j = s.bank j := by show (s.loseOutput c).1.banks[j.val] = _; rw [State.loseOutput_banks]; rfl
@[simp] theorem State.loseOutput_lane (c : ChanId) (j : LaneId) : (s.loseOutput c).1.lane j = s.lane j := by show (s.loseOutput c).1.lanes[j.val] = _; rw [State.loseOutput_lanes]; rfl
@[simp] theorem State.loseOutput_watch (c : ChanId) (j : WatchId) : (s.loseOutput c).1.watch j = s.watch j := by show (s.loseOutput c).1.watches[j.val] = _; rw [State.loseOutput_watches]; rfl
@[simp] theorem State.loseOutput_ring (c : ChanId) (j : ChanId) : (s.loseOutput c).1.ring j = s.ring j := by show (s.loseOutput c).1.engine.rings[j.val] = _; rw [State.loseOutput_engine]; rfl

/-! ## append -/

@[simp] theorem State.append_link (c : ChanId) (i : OutIndex) (v : Output) : (s.append c i v).1.link = s.link := by unfold State.append; dsimp only; split <;> rfl
@[simp] theorem State.append_coeffMem (c : ChanId) (i : OutIndex) (v : Output) : (s.append c i v).1.coeffMem = s.coeffMem := by unfold State.append; dsimp only; split <;> rfl
@[simp] theorem State.append_pool (c : ChanId) (i : OutIndex) (v : Output) : (s.append c i v).1.pool = s.pool := by unfold State.append; dsimp only; split <;> rfl
@[simp] theorem State.append_banks (c : ChanId) (i : OutIndex) (v : Output) : (s.append c i v).1.banks = s.banks := by unfold State.append; dsimp only; split <;> rfl
@[simp] theorem State.append_lanes (c : ChanId) (i : OutIndex) (v : Output) : (s.append c i v).1.lanes = s.lanes := by unfold State.append; dsimp only; split <;> rfl
@[simp] theorem State.append_engine (c : ChanId) (i : OutIndex) (v : Output) : (s.append c i v).1.engine = s.engine := by unfold State.append; dsimp only; split <;> rfl
@[simp] theorem State.append_watches (c : ChanId) (i : OutIndex) (v : Output) : (s.append c i v).1.watches = s.watches := by unfold State.append; dsimp only; split <;> rfl
@[simp] theorem State.append_resend (c : ChanId) (i : OutIndex) (v : Output) : (s.append c i v).1.resend = s.resend := by unfold State.append; dsimp only; split <;> rfl
@[simp] theorem State.append_arbiter (c : ChanId) (i : OutIndex) (v : Output) : (s.append c i v).1.arbiter = s.arbiter := by unfold State.append; dsimp only; split <;> rfl
@[simp] theorem State.append_pending (c : ChanId) (i : OutIndex) (v : Output) : (s.append c i v).1.pending = s.pending := by unfold State.append; dsimp only; split <;> rfl
@[simp] theorem State.append_stopRequests (c : ChanId) (i : OutIndex) (v : Output) : (s.append c i v).1.stopRequests = s.stopRequests := by unfold State.append; dsimp only; split <;> rfl
@[simp] theorem State.append_bank (c : ChanId) (i : OutIndex) (v : Output) (j : BankId) : (s.append c i v).1.bank j = s.bank j := by show (s.append c i v).1.banks[j.val] = _; rw [State.append_banks]; rfl
@[simp] theorem State.append_lane (c : ChanId) (i : OutIndex) (v : Output) (j : LaneId) : (s.append c i v).1.lane j = s.lane j := by show (s.append c i v).1.lanes[j.val] = _; rw [State.append_lanes]; rfl
@[simp] theorem State.append_watch (c : ChanId) (i : OutIndex) (v : Output) (j : WatchId) : (s.append c i v).1.watch j = s.watch j := by show (s.append c i v).1.watches[j.val] = _; rw [State.append_watches]; rfl
@[simp] theorem State.append_ring (c : ChanId) (i : OutIndex) (v : Output) (j : ChanId) : (s.append c i v).1.ring j = s.ring j := by show (s.append c i v).1.engine.rings[j.val] = _; rw [State.append_engine]; rfl

/-! ## drainReport -/

@[simp] theorem State.drainReport_link (c : ChanId) : (s.drainReport c).1.link = s.link := by unfold State.drainReport; split <;> rfl
@[simp] theorem State.drainReport_coeffMem (c : ChanId) : (s.drainReport c).1.coeffMem = s.coeffMem := by unfold State.drainReport; split <;> rfl
@[simp] theorem State.drainReport_pool (c : ChanId) : (s.drainReport c).1.pool = s.pool := by unfold State.drainReport; split <;> rfl
@[simp] theorem State.drainReport_banks (c : ChanId) : (s.drainReport c).1.banks = s.banks := by unfold State.drainReport; split <;> rfl
@[simp] theorem State.drainReport_lanes (c : ChanId) : (s.drainReport c).1.lanes = s.lanes := by unfold State.drainReport; split <;> rfl
@[simp] theorem State.drainReport_engine (c : ChanId) : (s.drainReport c).1.engine = s.engine := by unfold State.drainReport; split <;> rfl
@[simp] theorem State.drainReport_watches (c : ChanId) : (s.drainReport c).1.watches = s.watches := by unfold State.drainReport; split <;> rfl
@[simp] theorem State.drainReport_delivery (c : ChanId) : (s.drainReport c).1.delivery = s.delivery := by unfold State.drainReport; split <;> rfl
@[simp] theorem State.drainReport_resend (c : ChanId) : (s.drainReport c).1.resend = s.resend := by unfold State.drainReport; split <;> rfl
@[simp] theorem State.drainReport_arbiter (c : ChanId) : (s.drainReport c).1.arbiter = s.arbiter := by unfold State.drainReport; split <;> rfl
@[simp] theorem State.drainReport_pending (c : ChanId) : (s.drainReport c).1.pending = s.pending := by unfold State.drainReport; split <;> rfl
@[simp] theorem State.drainReport_stopRequests (c : ChanId) : (s.drainReport c).1.stopRequests = s.stopRequests := by unfold State.drainReport; split <;> rfl
@[simp] theorem State.drainReport_bank (c : ChanId) (j : BankId) : (s.drainReport c).1.bank j = s.bank j := by show (s.drainReport c).1.banks[j.val] = _; rw [State.drainReport_banks]; rfl
@[simp] theorem State.drainReport_lane (c : ChanId) (j : LaneId) : (s.drainReport c).1.lane j = s.lane j := by show (s.drainReport c).1.lanes[j.val] = _; rw [State.drainReport_lanes]; rfl
@[simp] theorem State.drainReport_watch (c : ChanId) (j : WatchId) : (s.drainReport c).1.watch j = s.watch j := by show (s.drainReport c).1.watches[j.val] = _; rw [State.drainReport_watches]; rfl
@[simp] theorem State.drainReport_deliv (c : ChanId) (j : ChanId) : (s.drainReport c).1.deliv j = s.deliv j := by show (s.drainReport c).1.delivery[j.val] = _; rw [State.drainReport_delivery]; rfl
@[simp] theorem State.drainReport_ring (c : ChanId) (j : ChanId) : (s.drainReport c).1.ring j = s.ring j := by show (s.drainReport c).1.engine.rings[j.val] = _; rw [State.drainReport_engine]; rfl

/-! ## checkDrain -/

@[simp] theorem State.checkDrain_link (c : ChanId) : (s.checkDrain c).1.link = s.link := by unfold State.checkDrain; split <;> simp
@[simp] theorem State.checkDrain_coeffMem (c : ChanId) : (s.checkDrain c).1.coeffMem = s.coeffMem := by unfold State.checkDrain; split <;> simp
@[simp] theorem State.checkDrain_pool (c : ChanId) : (s.checkDrain c).1.pool = s.pool := by unfold State.checkDrain; split <;> simp
@[simp] theorem State.checkDrain_banks (c : ChanId) : (s.checkDrain c).1.banks = s.banks := by unfold State.checkDrain; split <;> simp
@[simp] theorem State.checkDrain_lanes (c : ChanId) : (s.checkDrain c).1.lanes = s.lanes := by unfold State.checkDrain; split <;> simp
@[simp] theorem State.checkDrain_engine (c : ChanId) : (s.checkDrain c).1.engine = s.engine := by unfold State.checkDrain; split <;> simp
@[simp] theorem State.checkDrain_watches (c : ChanId) : (s.checkDrain c).1.watches = s.watches := by unfold State.checkDrain; split <;> simp
@[simp] theorem State.checkDrain_resend (c : ChanId) : (s.checkDrain c).1.resend = s.resend := by unfold State.checkDrain; split <;> simp
@[simp] theorem State.checkDrain_arbiter (c : ChanId) : (s.checkDrain c).1.arbiter = s.arbiter := by unfold State.checkDrain; split <;> simp
@[simp] theorem State.checkDrain_pending (c : ChanId) : (s.checkDrain c).1.pending = s.pending := by unfold State.checkDrain; split <;> simp
@[simp] theorem State.checkDrain_stopRequests (c : ChanId) : (s.checkDrain c).1.stopRequests = s.stopRequests := by unfold State.checkDrain; split <;> simp
@[simp] theorem State.checkDrain_bank (c : ChanId) (j : BankId) : (s.checkDrain c).1.bank j = s.bank j := by show (s.checkDrain c).1.banks[j.val] = _; rw [State.checkDrain_banks]; rfl
@[simp] theorem State.checkDrain_lane (c : ChanId) (j : LaneId) : (s.checkDrain c).1.lane j = s.lane j := by show (s.checkDrain c).1.lanes[j.val] = _; rw [State.checkDrain_lanes]; rfl
@[simp] theorem State.checkDrain_watch (c : ChanId) (j : WatchId) : (s.checkDrain c).1.watch j = s.watch j := by show (s.checkDrain c).1.watches[j.val] = _; rw [State.checkDrain_watches]; rfl
@[simp] theorem State.checkDrain_ring (c : ChanId) (j : ChanId) : (s.checkDrain c).1.ring j = s.ring j := by show (s.checkDrain c).1.engine.rings[j.val] = _; rw [State.checkDrain_engine]; rfl

/-! ## closeFilling -/

@[simp] theorem State.closeFilling_link (c : ChanId) : (s.closeFilling c).1.link = s.link := by
  unfold State.closeFilling; dsimp only; repeat' split
  all_goals rfl
@[simp] theorem State.closeFilling_channels (c : ChanId) : (s.closeFilling c).1.channels = s.channels := by
  unfold State.closeFilling; dsimp only; repeat' split
  all_goals rfl
@[simp] theorem State.closeFilling_coeffMem (c : ChanId) : (s.closeFilling c).1.coeffMem = s.coeffMem := by
  unfold State.closeFilling; dsimp only; repeat' split
  all_goals rfl
@[simp] theorem State.closeFilling_pool (c : ChanId) : (s.closeFilling c).1.pool = s.pool := by
  unfold State.closeFilling; dsimp only; repeat' split
  all_goals rfl
@[simp] theorem State.closeFilling_banks (c : ChanId) : (s.closeFilling c).1.banks = s.banks := by
  unfold State.closeFilling; dsimp only; repeat' split
  all_goals rfl
@[simp] theorem State.closeFilling_lanes (c : ChanId) : (s.closeFilling c).1.lanes = s.lanes := by
  unfold State.closeFilling; dsimp only; repeat' split
  all_goals rfl
@[simp] theorem State.closeFilling_engine (c : ChanId) : (s.closeFilling c).1.engine = s.engine := by
  unfold State.closeFilling; dsimp only; repeat' split
  all_goals rfl
@[simp] theorem State.closeFilling_watches (c : ChanId) : (s.closeFilling c).1.watches = s.watches := by
  unfold State.closeFilling; dsimp only; repeat' split
  all_goals rfl
@[simp] theorem State.closeFilling_resend (c : ChanId) : (s.closeFilling c).1.resend = s.resend := by
  unfold State.closeFilling; dsimp only; repeat' split
  all_goals rfl
@[simp] theorem State.closeFilling_arbiter (c : ChanId) : (s.closeFilling c).1.arbiter = s.arbiter := by
  unfold State.closeFilling; dsimp only; repeat' split
  all_goals rfl
@[simp] theorem State.closeFilling_pending (c : ChanId) : (s.closeFilling c).1.pending = s.pending := by
  unfold State.closeFilling; dsimp only; repeat' split
  all_goals rfl
@[simp] theorem State.closeFilling_stopRequests (c : ChanId) : (s.closeFilling c).1.stopRequests = s.stopRequests := by
  unfold State.closeFilling; dsimp only; repeat' split
  all_goals rfl
@[simp] theorem State.closeFilling_chan (c : ChanId) (j : ChanId) : (s.closeFilling c).1.chan j = s.chan j := by show (s.closeFilling c).1.channels[j.val] = _; rw [State.closeFilling_channels]; rfl
@[simp] theorem State.closeFilling_bank (c : ChanId) (j : BankId) : (s.closeFilling c).1.bank j = s.bank j := by show (s.closeFilling c).1.banks[j.val] = _; rw [State.closeFilling_banks]; rfl
@[simp] theorem State.closeFilling_lane (c : ChanId) (j : LaneId) : (s.closeFilling c).1.lane j = s.lane j := by show (s.closeFilling c).1.lanes[j.val] = _; rw [State.closeFilling_lanes]; rfl
@[simp] theorem State.closeFilling_watch (c : ChanId) (j : WatchId) : (s.closeFilling c).1.watch j = s.watch j := by show (s.closeFilling c).1.watches[j.val] = _; rw [State.closeFilling_watches]; rfl
@[simp] theorem State.closeFilling_ring (c : ChanId) (j : ChanId) : (s.closeFilling c).1.ring j = s.ring j := by show (s.closeFilling c).1.engine.rings[j.val] = _; rw [State.closeFilling_engine]; rfl

/-! ## closeBatch -/

@[simp] theorem State.closeBatch_link (c : ChanId) : (s.closeBatch c).1.link = s.link := by unfold State.closeBatch; split <;> simp [Raising.andThen]
@[simp] theorem State.closeBatch_coeffMem (c : ChanId) : (s.closeBatch c).1.coeffMem = s.coeffMem := by unfold State.closeBatch; split <;> simp [Raising.andThen]
@[simp] theorem State.closeBatch_pool (c : ChanId) : (s.closeBatch c).1.pool = s.pool := by unfold State.closeBatch; split <;> simp [Raising.andThen]
@[simp] theorem State.closeBatch_banks (c : ChanId) : (s.closeBatch c).1.banks = s.banks := by unfold State.closeBatch; split <;> simp [Raising.andThen]
@[simp] theorem State.closeBatch_lanes (c : ChanId) : (s.closeBatch c).1.lanes = s.lanes := by unfold State.closeBatch; split <;> simp [Raising.andThen]
@[simp] theorem State.closeBatch_engine (c : ChanId) : (s.closeBatch c).1.engine = s.engine := by unfold State.closeBatch; split <;> simp [Raising.andThen]
@[simp] theorem State.closeBatch_watches (c : ChanId) : (s.closeBatch c).1.watches = s.watches := by unfold State.closeBatch; split <;> simp [Raising.andThen]
@[simp] theorem State.closeBatch_resend (c : ChanId) : (s.closeBatch c).1.resend = s.resend := by unfold State.closeBatch; split <;> simp [Raising.andThen]
@[simp] theorem State.closeBatch_arbiter (c : ChanId) : (s.closeBatch c).1.arbiter = s.arbiter := by unfold State.closeBatch; split <;> simp [Raising.andThen]
@[simp] theorem State.closeBatch_pending (c : ChanId) : (s.closeBatch c).1.pending = s.pending := by unfold State.closeBatch; split <;> simp [Raising.andThen]
@[simp] theorem State.closeBatch_stopRequests (c : ChanId) : (s.closeBatch c).1.stopRequests = s.stopRequests := by unfold State.closeBatch; split <;> simp [Raising.andThen]
@[simp] theorem State.closeBatch_bank (c : ChanId) (j : BankId) : (s.closeBatch c).1.bank j = s.bank j := by show (s.closeBatch c).1.banks[j.val] = _; rw [State.closeBatch_banks]; rfl
@[simp] theorem State.closeBatch_lane (c : ChanId) (j : LaneId) : (s.closeBatch c).1.lane j = s.lane j := by show (s.closeBatch c).1.lanes[j.val] = _; rw [State.closeBatch_lanes]; rfl
@[simp] theorem State.closeBatch_watch (c : ChanId) (j : WatchId) : (s.closeBatch c).1.watch j = s.watch j := by show (s.closeBatch c).1.watches[j.val] = _; rw [State.closeBatch_watches]; rfl
@[simp] theorem State.closeBatch_ring (c : ChanId) (j : ChanId) : (s.closeBatch c).1.ring j = s.ring j := by show (s.closeBatch c).1.engine.rings[j.val] = _; rw [State.closeBatch_engine]; rfl

/-! ## discard -/

@[simp] theorem State.discard_link (c : ChanId) : (s.discard c).link = s.link := rfl
@[simp] theorem State.discard_channels (c : ChanId) : (s.discard c).channels = s.channels := rfl
@[simp] theorem State.discard_coeffMem (c : ChanId) : (s.discard c).coeffMem = s.coeffMem := rfl
@[simp] theorem State.discard_pool (c : ChanId) : (s.discard c).pool = s.pool := rfl
@[simp] theorem State.discard_banks (c : ChanId) : (s.discard c).banks = s.banks := rfl
@[simp] theorem State.discard_lanes (c : ChanId) : (s.discard c).lanes = s.lanes := rfl
@[simp] theorem State.discard_engine (c : ChanId) : (s.discard c).engine = s.engine := rfl
@[simp] theorem State.discard_watches (c : ChanId) : (s.discard c).watches = s.watches := rfl
@[simp] theorem State.discard_arbiter (c : ChanId) : (s.discard c).arbiter = s.arbiter := rfl
@[simp] theorem State.discard_pending (c : ChanId) : (s.discard c).pending = s.pending := rfl
@[simp] theorem State.discard_stopRequests (c : ChanId) : (s.discard c).stopRequests = s.stopRequests := rfl
@[simp] theorem State.discard_chan (c : ChanId) (j : ChanId) : (s.discard c).chan j = s.chan j := by show (s.discard c).channels[j.val] = _; rw [State.discard_channels]; rfl
@[simp] theorem State.discard_bank (c : ChanId) (j : BankId) : (s.discard c).bank j = s.bank j := by show (s.discard c).banks[j.val] = _; rw [State.discard_banks]; rfl
@[simp] theorem State.discard_lane (c : ChanId) (j : LaneId) : (s.discard c).lane j = s.lane j := by show (s.discard c).lanes[j.val] = _; rw [State.discard_lanes]; rfl
@[simp] theorem State.discard_watch (c : ChanId) (j : WatchId) : (s.discard c).watch j = s.watch j := by show (s.discard c).watches[j.val] = _; rw [State.discard_watches]; rfl
@[simp] theorem State.discard_ring (c : ChanId) (j : ChanId) : (s.discard c).ring j = s.ring j := by show (s.discard c).engine.rings[j.val] = _; rw [State.discard_engine]; rfl

/-! ## acknowledge -/

@[simp] theorem State.acknowledge_link (c : ChanId) (q : Byte) : (s.acknowledge c q).1.link = s.link := by unfold State.acknowledge; split <;> simp
@[simp] theorem State.acknowledge_coeffMem (c : ChanId) (q : Byte) : (s.acknowledge c q).1.coeffMem = s.coeffMem := by unfold State.acknowledge; split <;> simp
@[simp] theorem State.acknowledge_pool (c : ChanId) (q : Byte) : (s.acknowledge c q).1.pool = s.pool := by unfold State.acknowledge; split <;> simp
@[simp] theorem State.acknowledge_banks (c : ChanId) (q : Byte) : (s.acknowledge c q).1.banks = s.banks := by unfold State.acknowledge; split <;> simp
@[simp] theorem State.acknowledge_lanes (c : ChanId) (q : Byte) : (s.acknowledge c q).1.lanes = s.lanes := by unfold State.acknowledge; split <;> simp
@[simp] theorem State.acknowledge_engine (c : ChanId) (q : Byte) : (s.acknowledge c q).1.engine = s.engine := by unfold State.acknowledge; split <;> simp
@[simp] theorem State.acknowledge_watches (c : ChanId) (q : Byte) : (s.acknowledge c q).1.watches = s.watches := by unfold State.acknowledge; split <;> simp
@[simp] theorem State.acknowledge_arbiter (c : ChanId) (q : Byte) : (s.acknowledge c q).1.arbiter = s.arbiter := by unfold State.acknowledge; split <;> simp
@[simp] theorem State.acknowledge_pending (c : ChanId) (q : Byte) : (s.acknowledge c q).1.pending = s.pending := by unfold State.acknowledge; split <;> simp
@[simp] theorem State.acknowledge_stopRequests (c : ChanId) (q : Byte) : (s.acknowledge c q).1.stopRequests = s.stopRequests := by unfold State.acknowledge; split <;> simp
@[simp] theorem State.acknowledge_bank (c : ChanId) (q : Byte) (j : BankId) : (s.acknowledge c q).1.bank j = s.bank j := by show (s.acknowledge c q).1.banks[j.val] = _; rw [State.acknowledge_banks]; rfl
@[simp] theorem State.acknowledge_lane (c : ChanId) (q : Byte) (j : LaneId) : (s.acknowledge c q).1.lane j = s.lane j := by show (s.acknowledge c q).1.lanes[j.val] = _; rw [State.acknowledge_lanes]; rfl
@[simp] theorem State.acknowledge_watch (c : ChanId) (q : Byte) (j : WatchId) : (s.acknowledge c q).1.watch j = s.watch j := by show (s.acknowledge c q).1.watches[j.val] = _; rw [State.acknowledge_watches]; rfl
@[simp] theorem State.acknowledge_ring (c : ChanId) (q : Byte) (j : ChanId) : (s.acknowledge c q).1.ring j = s.ring j := by show (s.acknowledge c q).1.engine.rings[j.val] = _; rw [State.acknowledge_engine]; rfl

/-! ## dropBatch -/

@[simp] theorem State.dropBatch_link (c : ChanId) (b : BatchId) : (s.dropBatch c b).1.link = s.link := by simp [State.dropBatch, Raising.andThen]
@[simp] theorem State.dropBatch_coeffMem (c : ChanId) (b : BatchId) : (s.dropBatch c b).1.coeffMem = s.coeffMem := by simp [State.dropBatch, Raising.andThen]
@[simp] theorem State.dropBatch_pool (c : ChanId) (b : BatchId) : (s.dropBatch c b).1.pool = s.pool := by simp [State.dropBatch, Raising.andThen]
@[simp] theorem State.dropBatch_banks (c : ChanId) (b : BatchId) : (s.dropBatch c b).1.banks = s.banks := by simp [State.dropBatch, Raising.andThen]
@[simp] theorem State.dropBatch_lanes (c : ChanId) (b : BatchId) : (s.dropBatch c b).1.lanes = s.lanes := by simp [State.dropBatch, Raising.andThen]
@[simp] theorem State.dropBatch_engine (c : ChanId) (b : BatchId) : (s.dropBatch c b).1.engine = s.engine := by simp [State.dropBatch, Raising.andThen]
@[simp] theorem State.dropBatch_watches (c : ChanId) (b : BatchId) : (s.dropBatch c b).1.watches = s.watches := by simp [State.dropBatch, Raising.andThen]
@[simp] theorem State.dropBatch_resend (c : ChanId) (b : BatchId) : (s.dropBatch c b).1.resend = s.resend := by simp [State.dropBatch, Raising.andThen]
@[simp] theorem State.dropBatch_arbiter (c : ChanId) (b : BatchId) : (s.dropBatch c b).1.arbiter = s.arbiter := by simp [State.dropBatch, Raising.andThen]
@[simp] theorem State.dropBatch_pending (c : ChanId) (b : BatchId) : (s.dropBatch c b).1.pending = s.pending := by simp [State.dropBatch, Raising.andThen]
@[simp] theorem State.dropBatch_stopRequests (c : ChanId) (b : BatchId) : (s.dropBatch c b).1.stopRequests = s.stopRequests := by simp [State.dropBatch, Raising.andThen]
@[simp] theorem State.dropBatch_bank (c : ChanId) (b : BatchId) (j : BankId) : (s.dropBatch c b).1.bank j = s.bank j := by show (s.dropBatch c b).1.banks[j.val] = _; rw [State.dropBatch_banks]; rfl
@[simp] theorem State.dropBatch_lane (c : ChanId) (b : BatchId) (j : LaneId) : (s.dropBatch c b).1.lane j = s.lane j := by show (s.dropBatch c b).1.lanes[j.val] = _; rw [State.dropBatch_lanes]; rfl
@[simp] theorem State.dropBatch_watch (c : ChanId) (b : BatchId) (j : WatchId) : (s.dropBatch c b).1.watch j = s.watch j := by show (s.dropBatch c b).1.watches[j.val] = _; rw [State.dropBatch_watches]; rfl
@[simp] theorem State.dropBatch_ring (c : ChanId) (b : BatchId) (j : ChanId) : (s.dropBatch c b).1.ring j = s.ring j := by show (s.dropBatch c b).1.engine.rings[j.val] = _; rw [State.dropBatch_engine]; rfl

/-! ## startTimer -/

@[simp] theorem State.startTimer_link (c : ChanId) (b : BatchId) : (s.startTimer c b).link = s.link := rfl
@[simp] theorem State.startTimer_channels (c : ChanId) (b : BatchId) : (s.startTimer c b).channels = s.channels := rfl
@[simp] theorem State.startTimer_coeffMem (c : ChanId) (b : BatchId) : (s.startTimer c b).coeffMem = s.coeffMem := rfl
@[simp] theorem State.startTimer_pool (c : ChanId) (b : BatchId) : (s.startTimer c b).pool = s.pool := rfl
@[simp] theorem State.startTimer_banks (c : ChanId) (b : BatchId) : (s.startTimer c b).banks = s.banks := rfl
@[simp] theorem State.startTimer_lanes (c : ChanId) (b : BatchId) : (s.startTimer c b).lanes = s.lanes := rfl
@[simp] theorem State.startTimer_engine (c : ChanId) (b : BatchId) : (s.startTimer c b).engine = s.engine := rfl
@[simp] theorem State.startTimer_watches (c : ChanId) (b : BatchId) : (s.startTimer c b).watches = s.watches := rfl
@[simp] theorem State.startTimer_resend (c : ChanId) (b : BatchId) : (s.startTimer c b).resend = s.resend := rfl
@[simp] theorem State.startTimer_arbiter (c : ChanId) (b : BatchId) : (s.startTimer c b).arbiter = s.arbiter := rfl
@[simp] theorem State.startTimer_pending (c : ChanId) (b : BatchId) : (s.startTimer c b).pending = s.pending := rfl
@[simp] theorem State.startTimer_stopRequests (c : ChanId) (b : BatchId) : (s.startTimer c b).stopRequests = s.stopRequests := rfl
@[simp] theorem State.startTimer_chan (c : ChanId) (b : BatchId) (j : ChanId) : (s.startTimer c b).chan j = s.chan j := by show (s.startTimer c b).channels[j.val] = _; rw [State.startTimer_channels]; rfl
@[simp] theorem State.startTimer_bank (c : ChanId) (b : BatchId) (j : BankId) : (s.startTimer c b).bank j = s.bank j := by show (s.startTimer c b).banks[j.val] = _; rw [State.startTimer_banks]; rfl
@[simp] theorem State.startTimer_lane (c : ChanId) (b : BatchId) (j : LaneId) : (s.startTimer c b).lane j = s.lane j := by show (s.startTimer c b).lanes[j.val] = _; rw [State.startTimer_lanes]; rfl
@[simp] theorem State.startTimer_watch (c : ChanId) (b : BatchId) (j : WatchId) : (s.startTimer c b).watch j = s.watch j := by show (s.startTimer c b).watches[j.val] = _; rw [State.startTimer_watches]; rfl
@[simp] theorem State.startTimer_ring (c : ChanId) (b : BatchId) (j : ChanId) : (s.startTimer c b).ring j = s.ring j := by show (s.startTimer c b).engine.rings[j.val] = _; rw [State.startTimer_engine]; rfl

/-! ## batchSent -/

@[simp] theorem State.batchSent_link (c : ChanId) (b : BatchId) : (s.batchSent c b).1.link = s.link := by
  unfold State.batchSent; dsimp only; repeat' split
  all_goals simp
@[simp] theorem State.batchSent_coeffMem (c : ChanId) (b : BatchId) : (s.batchSent c b).1.coeffMem = s.coeffMem := by
  unfold State.batchSent; dsimp only; repeat' split
  all_goals simp
@[simp] theorem State.batchSent_pool (c : ChanId) (b : BatchId) : (s.batchSent c b).1.pool = s.pool := by
  unfold State.batchSent; dsimp only; repeat' split
  all_goals simp
@[simp] theorem State.batchSent_banks (c : ChanId) (b : BatchId) : (s.batchSent c b).1.banks = s.banks := by
  unfold State.batchSent; dsimp only; repeat' split
  all_goals simp
@[simp] theorem State.batchSent_lanes (c : ChanId) (b : BatchId) : (s.batchSent c b).1.lanes = s.lanes := by
  unfold State.batchSent; dsimp only; repeat' split
  all_goals simp
@[simp] theorem State.batchSent_engine (c : ChanId) (b : BatchId) : (s.batchSent c b).1.engine = s.engine := by
  unfold State.batchSent; dsimp only; repeat' split
  all_goals simp
@[simp] theorem State.batchSent_watches (c : ChanId) (b : BatchId) : (s.batchSent c b).1.watches = s.watches := by
  unfold State.batchSent; dsimp only; repeat' split
  all_goals simp
@[simp] theorem State.batchSent_resend (c : ChanId) (b : BatchId) : (s.batchSent c b).1.resend = s.resend := by
  unfold State.batchSent; dsimp only; repeat' split
  all_goals simp
@[simp] theorem State.batchSent_arbiter (c : ChanId) (b : BatchId) : (s.batchSent c b).1.arbiter = s.arbiter := by
  unfold State.batchSent; dsimp only; repeat' split
  all_goals simp
@[simp] theorem State.batchSent_pending (c : ChanId) (b : BatchId) : (s.batchSent c b).1.pending = s.pending := by
  unfold State.batchSent; dsimp only; repeat' split
  all_goals simp
@[simp] theorem State.batchSent_stopRequests (c : ChanId) (b : BatchId) : (s.batchSent c b).1.stopRequests = s.stopRequests := by
  unfold State.batchSent; dsimp only; repeat' split
  all_goals simp
@[simp] theorem State.batchSent_bank (c : ChanId) (b : BatchId) (j : BankId) : (s.batchSent c b).1.bank j = s.bank j := by show (s.batchSent c b).1.banks[j.val] = _; rw [State.batchSent_banks]; rfl
@[simp] theorem State.batchSent_lane (c : ChanId) (b : BatchId) (j : LaneId) : (s.batchSent c b).1.lane j = s.lane j := by show (s.batchSent c b).1.lanes[j.val] = _; rw [State.batchSent_lanes]; rfl
@[simp] theorem State.batchSent_watch (c : ChanId) (b : BatchId) (j : WatchId) : (s.batchSent c b).1.watch j = s.watch j := by show (s.batchSent c b).1.watches[j.val] = _; rw [State.batchSent_watches]; rfl
@[simp] theorem State.batchSent_ring (c : ChanId) (b : BatchId) (j : ChanId) : (s.batchSent c b).1.ring j = s.ring j := by show (s.batchSent c b).1.engine.rings[j.val] = _; rw [State.batchSent_engine]; rfl

/-! ## batchAbandoned -/

@[simp] theorem State.batchAbandoned_link (c : ChanId) (b : BatchId) : (s.batchAbandoned c b).link = s.link := by
  unfold State.batchAbandoned; dsimp only; repeat' split
  all_goals simp
@[simp] theorem State.batchAbandoned_channels (c : ChanId) (b : BatchId) : (s.batchAbandoned c b).channels = s.channels := by
  unfold State.batchAbandoned; dsimp only; repeat' split
  all_goals simp
@[simp] theorem State.batchAbandoned_coeffMem (c : ChanId) (b : BatchId) : (s.batchAbandoned c b).coeffMem = s.coeffMem := by
  unfold State.batchAbandoned; dsimp only; repeat' split
  all_goals simp
@[simp] theorem State.batchAbandoned_pool (c : ChanId) (b : BatchId) : (s.batchAbandoned c b).pool = s.pool := by
  unfold State.batchAbandoned; dsimp only; repeat' split
  all_goals simp
@[simp] theorem State.batchAbandoned_banks (c : ChanId) (b : BatchId) : (s.batchAbandoned c b).banks = s.banks := by
  unfold State.batchAbandoned; dsimp only; repeat' split
  all_goals simp
@[simp] theorem State.batchAbandoned_lanes (c : ChanId) (b : BatchId) : (s.batchAbandoned c b).lanes = s.lanes := by
  unfold State.batchAbandoned; dsimp only; repeat' split
  all_goals simp
@[simp] theorem State.batchAbandoned_engine (c : ChanId) (b : BatchId) : (s.batchAbandoned c b).engine = s.engine := by
  unfold State.batchAbandoned; dsimp only; repeat' split
  all_goals simp
@[simp] theorem State.batchAbandoned_watches (c : ChanId) (b : BatchId) : (s.batchAbandoned c b).watches = s.watches := by
  unfold State.batchAbandoned; dsimp only; repeat' split
  all_goals simp
@[simp] theorem State.batchAbandoned_resend (c : ChanId) (b : BatchId) : (s.batchAbandoned c b).resend = s.resend := by
  unfold State.batchAbandoned; dsimp only; repeat' split
  all_goals simp
@[simp] theorem State.batchAbandoned_arbiter (c : ChanId) (b : BatchId) : (s.batchAbandoned c b).arbiter = s.arbiter := by
  unfold State.batchAbandoned; dsimp only; repeat' split
  all_goals simp
@[simp] theorem State.batchAbandoned_pending (c : ChanId) (b : BatchId) : (s.batchAbandoned c b).pending = s.pending := by
  unfold State.batchAbandoned; dsimp only; repeat' split
  all_goals simp
@[simp] theorem State.batchAbandoned_stopRequests (c : ChanId) (b : BatchId) : (s.batchAbandoned c b).stopRequests = s.stopRequests := by
  unfold State.batchAbandoned; dsimp only; repeat' split
  all_goals simp
@[simp] theorem State.batchAbandoned_chan (c : ChanId) (b : BatchId) (j : ChanId) : (s.batchAbandoned c b).chan j = s.chan j := by show (s.batchAbandoned c b).channels[j.val] = _; rw [State.batchAbandoned_channels]; rfl
@[simp] theorem State.batchAbandoned_bank (c : ChanId) (b : BatchId) (j : BankId) : (s.batchAbandoned c b).bank j = s.bank j := by show (s.batchAbandoned c b).banks[j.val] = _; rw [State.batchAbandoned_banks]; rfl
@[simp] theorem State.batchAbandoned_lane (c : ChanId) (b : BatchId) (j : LaneId) : (s.batchAbandoned c b).lane j = s.lane j := by show (s.batchAbandoned c b).lanes[j.val] = _; rw [State.batchAbandoned_lanes]; rfl
@[simp] theorem State.batchAbandoned_watch (c : ChanId) (b : BatchId) (j : WatchId) : (s.batchAbandoned c b).watch j = s.watch j := by show (s.batchAbandoned c b).watches[j.val] = _; rw [State.batchAbandoned_watches]; rfl
@[simp] theorem State.batchAbandoned_ring (c : ChanId) (b : BatchId) (j : ChanId) : (s.batchAbandoned c b).ring j = s.ring j := by show (s.batchAbandoned c b).engine.rings[j.val] = _; rw [State.batchAbandoned_engine]; rfl

/-! ## swapPoint -/

@[simp] theorem State.swapPoint_link (c : ChanId) : (s.swapPoint c).link = s.link := by unfold State.swapPoint; split <;> simp
@[simp] theorem State.swapPoint_coeffMem (c : ChanId) : (s.swapPoint c).coeffMem = s.coeffMem := by unfold State.swapPoint; split <;> simp
@[simp] theorem State.swapPoint_pool (c : ChanId) : (s.swapPoint c).pool = s.pool := by unfold State.swapPoint; split <;> simp
@[simp] theorem State.swapPoint_lanes (c : ChanId) : (s.swapPoint c).lanes = s.lanes := by unfold State.swapPoint; split <;> simp
@[simp] theorem State.swapPoint_engine (c : ChanId) : (s.swapPoint c).engine = s.engine := by unfold State.swapPoint; split <;> simp
@[simp] theorem State.swapPoint_watches (c : ChanId) : (s.swapPoint c).watches = s.watches := by unfold State.swapPoint; split <;> simp
@[simp] theorem State.swapPoint_delivery (c : ChanId) : (s.swapPoint c).delivery = s.delivery := by unfold State.swapPoint; split <;> simp
@[simp] theorem State.swapPoint_resend (c : ChanId) : (s.swapPoint c).resend = s.resend := by unfold State.swapPoint; split <;> simp
@[simp] theorem State.swapPoint_arbiter (c : ChanId) : (s.swapPoint c).arbiter = s.arbiter := by unfold State.swapPoint; split <;> simp
@[simp] theorem State.swapPoint_pending (c : ChanId) : (s.swapPoint c).pending = s.pending := by unfold State.swapPoint; split <;> simp
@[simp] theorem State.swapPoint_stopRequests (c : ChanId) : (s.swapPoint c).stopRequests = s.stopRequests := by unfold State.swapPoint; split <;> simp
@[simp] theorem State.swapPoint_lane (c : ChanId) (j : LaneId) : (s.swapPoint c).lane j = s.lane j := by show (s.swapPoint c).lanes[j.val] = _; rw [State.swapPoint_lanes]; rfl
@[simp] theorem State.swapPoint_watch (c : ChanId) (j : WatchId) : (s.swapPoint c).watch j = s.watch j := by show (s.swapPoint c).watches[j.val] = _; rw [State.swapPoint_watches]; rfl
@[simp] theorem State.swapPoint_deliv (c : ChanId) (j : ChanId) : (s.swapPoint c).deliv j = s.deliv j := by show (s.swapPoint c).delivery[j.val] = _; rw [State.swapPoint_delivery]; rfl
@[simp] theorem State.swapPoint_ring (c : ChanId) (j : ChanId) : (s.swapPoint c).ring j = s.ring j := by show (s.swapPoint c).engine.rings[j.val] = _; rw [State.swapPoint_engine]; rfl

/-! ## ignoreRequests -/

@[simp] theorem State.ignoreRequests_link (c : ChanId) : (s.ignoreRequests c).link = s.link := rfl
@[simp] theorem State.ignoreRequests_channels (c : ChanId) : (s.ignoreRequests c).channels = s.channels := rfl
@[simp] theorem State.ignoreRequests_coeffMem (c : ChanId) : (s.ignoreRequests c).coeffMem = s.coeffMem := rfl
@[simp] theorem State.ignoreRequests_pool (c : ChanId) : (s.ignoreRequests c).pool = s.pool := rfl
@[simp] theorem State.ignoreRequests_banks (c : ChanId) : (s.ignoreRequests c).banks = s.banks := rfl
@[simp] theorem State.ignoreRequests_lanes (c : ChanId) : (s.ignoreRequests c).lanes = s.lanes := rfl
@[simp] theorem State.ignoreRequests_engine (c : ChanId) : (s.ignoreRequests c).engine = s.engine := rfl
@[simp] theorem State.ignoreRequests_watches (c : ChanId) : (s.ignoreRequests c).watches = s.watches := rfl
@[simp] theorem State.ignoreRequests_delivery (c : ChanId) : (s.ignoreRequests c).delivery = s.delivery := rfl
@[simp] theorem State.ignoreRequests_resend (c : ChanId) : (s.ignoreRequests c).resend = s.resend := rfl
@[simp] theorem State.ignoreRequests_arbiter (c : ChanId) : (s.ignoreRequests c).arbiter = s.arbiter := rfl
@[simp] theorem State.ignoreRequests_pending (c : ChanId) : (s.ignoreRequests c).pending = s.pending := rfl
@[simp] theorem State.ignoreRequests_chan (c : ChanId) (j : ChanId) : (s.ignoreRequests c).chan j = s.chan j := rfl
@[simp] theorem State.ignoreRequests_bank (c : ChanId) (j : BankId) : (s.ignoreRequests c).bank j = s.bank j := rfl
@[simp] theorem State.ignoreRequests_lane (c : ChanId) (j : LaneId) : (s.ignoreRequests c).lane j = s.lane j := rfl
@[simp] theorem State.ignoreRequests_watch (c : ChanId) (j : WatchId) : (s.ignoreRequests c).watch j = s.watch j := rfl
@[simp] theorem State.ignoreRequests_deliv (c : ChanId) (j : ChanId) : (s.ignoreRequests c).deliv j = s.deliv j := rfl
@[simp] theorem State.ignoreRequests_ring (c : ChanId) (j : ChanId) : (s.ignoreRequests c).ring j = s.ring j := rfl
@[simp] theorem State.ignoreRequests_stopRequests (c : ChanId) :
    (s.ignoreRequests c).stopRequests = s.stopRequests.filter (· != c) := rfl

/-! ## stopRequest -/

@[simp] theorem State.stopRequest_link (c : ChanId) : (s.stopRequest c).link = s.link := by unfold State.stopRequest; split <;> simp
@[simp] theorem State.stopRequest_coeffMem (c : ChanId) : (s.stopRequest c).coeffMem = s.coeffMem := by unfold State.stopRequest; split <;> simp
@[simp] theorem State.stopRequest_pool (c : ChanId) : (s.stopRequest c).pool = s.pool := by unfold State.stopRequest; split <;> simp
@[simp] theorem State.stopRequest_lanes (c : ChanId) : (s.stopRequest c).lanes = s.lanes := by unfold State.stopRequest; split <;> simp
@[simp] theorem State.stopRequest_engine (c : ChanId) : (s.stopRequest c).engine = s.engine := by unfold State.stopRequest; split <;> simp
@[simp] theorem State.stopRequest_watches (c : ChanId) : (s.stopRequest c).watches = s.watches := by unfold State.stopRequest; split <;> simp
@[simp] theorem State.stopRequest_delivery (c : ChanId) : (s.stopRequest c).delivery = s.delivery := by unfold State.stopRequest; split <;> simp
@[simp] theorem State.stopRequest_resend (c : ChanId) : (s.stopRequest c).resend = s.resend := by unfold State.stopRequest; split <;> simp
@[simp] theorem State.stopRequest_arbiter (c : ChanId) : (s.stopRequest c).arbiter = s.arbiter := by unfold State.stopRequest; split <;> simp
@[simp] theorem State.stopRequest_pending (c : ChanId) : (s.stopRequest c).pending = s.pending := by unfold State.stopRequest; split <;> simp
@[simp] theorem State.stopRequest_stopRequests (c : ChanId) :
    (s.stopRequest c).stopRequests =
      if (s.chan c).state = .running then s.stopRequests.filter (· != c) else s.stopRequests := by
  unfold State.stopRequest; split <;> simp [*]
@[simp] theorem State.stopRequest_lane (c : ChanId) (j : LaneId) : (s.stopRequest c).lane j = s.lane j := by show (s.stopRequest c).lanes[j.val] = _; rw [State.stopRequest_lanes]; rfl
@[simp] theorem State.stopRequest_watch (c : ChanId) (j : WatchId) : (s.stopRequest c).watch j = s.watch j := by show (s.stopRequest c).watches[j.val] = _; rw [State.stopRequest_watches]; rfl
@[simp] theorem State.stopRequest_deliv (c : ChanId) (j : ChanId) : (s.stopRequest c).deliv j = s.deliv j := by show (s.stopRequest c).delivery[j.val] = _; rw [State.stopRequest_delivery]; rfl
@[simp] theorem State.stopRequest_ring (c : ChanId) (j : ChanId) : (s.stopRequest c).ring j = s.ring j := by show (s.stopRequest c).engine.rings[j.val] = _; rw [State.stopRequest_engine]; rfl

/-! ## endRun -/

@[simp] theorem State.endRun_link (c : ChanId) (st : ChanState) (ds : DoneStatus) : (s.endRun c st ds).link = s.link := by simp [State.endRun]
@[simp] theorem State.endRun_coeffMem (c : ChanId) (st : ChanState) (ds : DoneStatus) : (s.endRun c st ds).coeffMem = s.coeffMem := by simp [State.endRun]
@[simp] theorem State.endRun_pool (c : ChanId) (st : ChanState) (ds : DoneStatus) : (s.endRun c st ds).pool = s.pool := by simp [State.endRun]
@[simp] theorem State.endRun_lanes (c : ChanId) (st : ChanState) (ds : DoneStatus) : (s.endRun c st ds).lanes = s.lanes := by simp [State.endRun]
@[simp] theorem State.endRun_engine (c : ChanId) (st : ChanState) (ds : DoneStatus) : (s.endRun c st ds).engine = s.engine := by simp [State.endRun]
@[simp] theorem State.endRun_watches (c : ChanId) (st : ChanState) (ds : DoneStatus) : (s.endRun c st ds).watches = s.watches := by simp [State.endRun]
@[simp] theorem State.endRun_arbiter (c : ChanId) (st : ChanState) (ds : DoneStatus) : (s.endRun c st ds).arbiter = s.arbiter := by simp [State.endRun]
@[simp] theorem State.endRun_pending (c : ChanId) (st : ChanState) (ds : DoneStatus) : (s.endRun c st ds).pending = s.pending := by simp [State.endRun]
@[simp] theorem State.endRun_stopRequests (c : ChanId) (st : ChanState) (ds : DoneStatus) : (s.endRun c st ds).stopRequests = s.stopRequests := by simp [State.endRun]
@[simp] theorem State.endRun_lane (c : ChanId) (st : ChanState) (ds : DoneStatus) (j : LaneId) : (s.endRun c st ds).lane j = s.lane j := by show (s.endRun c st ds).lanes[j.val] = _; rw [State.endRun_lanes]; rfl
@[simp] theorem State.endRun_watch (c : ChanId) (st : ChanState) (ds : DoneStatus) (j : WatchId) : (s.endRun c st ds).watch j = s.watch j := by show (s.endRun c st ds).watches[j.val] = _; rw [State.endRun_watches]; rfl
@[simp] theorem State.endRun_ring (c : ChanId) (st : ChanState) (ds : DoneStatus) (j : ChanId) : (s.endRun c st ds).ring j = s.ring j := by show (s.endRun c st ds).engine.rings[j.val] = _; rw [State.endRun_engine]; rfl

/-! ## faultClaim -/

@[simp] theorem State.faultClaim_link (c : ChanId) (k : FaultCause) : (s.faultClaim c k).1.link = s.link := by unfold State.faultClaim; split <;> simp
@[simp] theorem State.faultClaim_coeffMem (c : ChanId) (k : FaultCause) : (s.faultClaim c k).1.coeffMem = s.coeffMem := by unfold State.faultClaim; split <;> simp
@[simp] theorem State.faultClaim_pool (c : ChanId) (k : FaultCause) : (s.faultClaim c k).1.pool = s.pool := by unfold State.faultClaim; split <;> simp
@[simp] theorem State.faultClaim_lanes (c : ChanId) (k : FaultCause) : (s.faultClaim c k).1.lanes = s.lanes := by unfold State.faultClaim; split <;> simp
@[simp] theorem State.faultClaim_engine (c : ChanId) (k : FaultCause) : (s.faultClaim c k).1.engine = s.engine := by unfold State.faultClaim; split <;> simp
@[simp] theorem State.faultClaim_watches (c : ChanId) (k : FaultCause) : (s.faultClaim c k).1.watches = s.watches := by unfold State.faultClaim; split <;> simp
@[simp] theorem State.faultClaim_arbiter (c : ChanId) (k : FaultCause) : (s.faultClaim c k).1.arbiter = s.arbiter := by unfold State.faultClaim; split <;> simp
@[simp] theorem State.faultClaim_pending (c : ChanId) (k : FaultCause) : (s.faultClaim c k).1.pending = s.pending := by unfold State.faultClaim; split <;> simp
@[simp] theorem State.faultClaim_stopRequests (c : ChanId) (k : FaultCause) : (s.faultClaim c k).1.stopRequests = s.stopRequests := by unfold State.faultClaim; split <;> simp
@[simp] theorem State.faultClaim_lane (c : ChanId) (k : FaultCause) (j : LaneId) : (s.faultClaim c k).1.lane j = s.lane j := by show (s.faultClaim c k).1.lanes[j.val] = _; rw [State.faultClaim_lanes]; rfl
@[simp] theorem State.faultClaim_watch (c : ChanId) (k : FaultCause) (j : WatchId) : (s.faultClaim c k).1.watch j = s.watch j := by show (s.faultClaim c k).1.watches[j.val] = _; rw [State.faultClaim_watches]; rfl
@[simp] theorem State.faultClaim_ring (c : ChanId) (k : FaultCause) (j : ChanId) : (s.faultClaim c k).1.ring j = s.ring j := by show (s.faultClaim c k).1.engine.rings[j.val] = _; rw [State.faultClaim_engine]; rfl

/-! ## configure -/

@[simp] theorem State.configure_link (c : ChanId) (g : ChanConfig) : (s.configure c g).link = s.link := rfl
@[simp] theorem State.configure_coeffMem (c : ChanId) (g : ChanConfig) : (s.configure c g).coeffMem = s.coeffMem := rfl
@[simp] theorem State.configure_pool (c : ChanId) (g : ChanConfig) : (s.configure c g).pool = s.pool := rfl
@[simp] theorem State.configure_banks (c : ChanId) (g : ChanConfig) : (s.configure c g).banks = s.banks := rfl
@[simp] theorem State.configure_lanes (c : ChanId) (g : ChanConfig) : (s.configure c g).lanes = s.lanes := rfl
@[simp] theorem State.configure_engine (c : ChanId) (g : ChanConfig) : (s.configure c g).engine = s.engine := rfl
@[simp] theorem State.configure_watches (c : ChanId) (g : ChanConfig) : (s.configure c g).watches = s.watches := rfl
@[simp] theorem State.configure_delivery (c : ChanId) (g : ChanConfig) : (s.configure c g).delivery = s.delivery := rfl
@[simp] theorem State.configure_resend (c : ChanId) (g : ChanConfig) : (s.configure c g).resend = s.resend := rfl
@[simp] theorem State.configure_pending (c : ChanId) (g : ChanConfig) : (s.configure c g).pending = s.pending := rfl
@[simp] theorem State.configure_stopRequests (c : ChanId) (g : ChanConfig) : (s.configure c g).stopRequests = s.stopRequests := rfl
@[simp] theorem State.configure_bank (c : ChanId) (g : ChanConfig) (j : BankId) : (s.configure c g).bank j = s.bank j := by show (s.configure c g).banks[j.val] = _; rw [State.configure_banks]; rfl
@[simp] theorem State.configure_lane (c : ChanId) (g : ChanConfig) (j : LaneId) : (s.configure c g).lane j = s.lane j := by show (s.configure c g).lanes[j.val] = _; rw [State.configure_lanes]; rfl
@[simp] theorem State.configure_watch (c : ChanId) (g : ChanConfig) (j : WatchId) : (s.configure c g).watch j = s.watch j := by show (s.configure c g).watches[j.val] = _; rw [State.configure_watches]; rfl
@[simp] theorem State.configure_deliv (c : ChanId) (g : ChanConfig) (j : ChanId) : (s.configure c g).deliv j = s.deliv j := by show (s.configure c g).delivery[j.val] = _; rw [State.configure_delivery]; rfl
@[simp] theorem State.configure_ring (c : ChanId) (g : ChanConfig) (j : ChanId) : (s.configure c g).ring j = s.ring j := by show (s.configure c g).engine.rings[j.val] = _; rw [State.configure_engine]; rfl

/-! ## bind -/

@[simp] theorem State.bind_link (c : ChanId) (b : BankId) : (s.bind c b).link = s.link := by simp [State.bind]
@[simp] theorem State.bind_coeffMem (c : ChanId) (b : BankId) : (s.bind c b).coeffMem = s.coeffMem := by simp [State.bind]
@[simp] theorem State.bind_pool (c : ChanId) (b : BankId) : (s.bind c b).pool = s.pool := by simp [State.bind]
@[simp] theorem State.bind_lanes (c : ChanId) (b : BankId) : (s.bind c b).lanes = s.lanes := by simp [State.bind]
@[simp] theorem State.bind_engine (c : ChanId) (b : BankId) : (s.bind c b).engine = s.engine := by simp [State.bind]
@[simp] theorem State.bind_watches (c : ChanId) (b : BankId) : (s.bind c b).watches = s.watches := by simp [State.bind]
@[simp] theorem State.bind_delivery (c : ChanId) (b : BankId) : (s.bind c b).delivery = s.delivery := by simp [State.bind]
@[simp] theorem State.bind_resend (c : ChanId) (b : BankId) : (s.bind c b).resend = s.resend := by simp [State.bind]
@[simp] theorem State.bind_arbiter (c : ChanId) (b : BankId) : (s.bind c b).arbiter = s.arbiter := by simp [State.bind]
@[simp] theorem State.bind_pending (c : ChanId) (b : BankId) : (s.bind c b).pending = s.pending := by simp [State.bind]
@[simp] theorem State.bind_stopRequests (c : ChanId) (b : BankId) : (s.bind c b).stopRequests = s.stopRequests := by simp [State.bind]
@[simp] theorem State.bind_lane (c : ChanId) (b : BankId) (j : LaneId) : (s.bind c b).lane j = s.lane j := by show (s.bind c b).lanes[j.val] = _; rw [State.bind_lanes]; rfl
@[simp] theorem State.bind_watch (c : ChanId) (b : BankId) (j : WatchId) : (s.bind c b).watch j = s.watch j := by show (s.bind c b).watches[j.val] = _; rw [State.bind_watches]; rfl
@[simp] theorem State.bind_deliv (c : ChanId) (b : BankId) (j : ChanId) : (s.bind c b).deliv j = s.deliv j := by show (s.bind c b).delivery[j.val] = _; rw [State.bind_delivery]; rfl
@[simp] theorem State.bind_ring (c : ChanId) (b : BankId) (j : ChanId) : (s.bind c b).ring j = s.ring j := by show (s.bind c b).engine.rings[j.val] = _; rw [State.bind_engine]; rfl

/-! ## start -/

@[simp] theorem State.start_link (c : ChanId) : (s.start c).link = s.link := rfl
@[simp] theorem State.start_coeffMem (c : ChanId) : (s.start c).coeffMem = s.coeffMem := rfl
@[simp] theorem State.start_pool (c : ChanId) : (s.start c).pool = s.pool := rfl
@[simp] theorem State.start_banks (c : ChanId) : (s.start c).banks = s.banks := rfl
@[simp] theorem State.start_lanes (c : ChanId) : (s.start c).lanes = s.lanes := rfl
@[simp] theorem State.start_engine (c : ChanId) : (s.start c).engine = s.engine := rfl
@[simp] theorem State.start_resend (c : ChanId) : (s.start c).resend = s.resend := rfl
@[simp] theorem State.start_arbiter (c : ChanId) : (s.start c).arbiter = s.arbiter := rfl
@[simp] theorem State.start_pending (c : ChanId) : (s.start c).pending = s.pending := rfl
@[simp] theorem State.start_stopRequests (c : ChanId) : (s.start c).stopRequests = s.stopRequests := rfl
@[simp] theorem State.start_bank (c : ChanId) (j : BankId) : (s.start c).bank j = s.bank j := by show (s.start c).banks[j.val] = _; rw [State.start_banks]; rfl
@[simp] theorem State.start_lane (c : ChanId) (j : LaneId) : (s.start c).lane j = s.lane j := by show (s.start c).lanes[j.val] = _; rw [State.start_lanes]; rfl
@[simp] theorem State.start_ring (c : ChanId) (j : ChanId) : (s.start c).ring j = s.ring j := by show (s.start c).engine.rings[j.val] = _; rw [State.start_engine]; rfl

/-! ## closeAtStop -/

@[simp] theorem State.closeAtStop_link (c : ChanId) : (s.closeAtStop c).1.link = s.link := by unfold State.closeAtStop; split <;> simp
@[simp] theorem State.closeAtStop_coeffMem (c : ChanId) : (s.closeAtStop c).1.coeffMem = s.coeffMem := by unfold State.closeAtStop; split <;> simp
@[simp] theorem State.closeAtStop_pool (c : ChanId) : (s.closeAtStop c).1.pool = s.pool := by unfold State.closeAtStop; split <;> simp
@[simp] theorem State.closeAtStop_banks (c : ChanId) : (s.closeAtStop c).1.banks = s.banks := by unfold State.closeAtStop; split <;> simp
@[simp] theorem State.closeAtStop_lanes (c : ChanId) : (s.closeAtStop c).1.lanes = s.lanes := by unfold State.closeAtStop; split <;> simp
@[simp] theorem State.closeAtStop_engine (c : ChanId) : (s.closeAtStop c).1.engine = s.engine := by unfold State.closeAtStop; split <;> simp
@[simp] theorem State.closeAtStop_watches (c : ChanId) : (s.closeAtStop c).1.watches = s.watches := by unfold State.closeAtStop; split <;> simp
@[simp] theorem State.closeAtStop_resend (c : ChanId) : (s.closeAtStop c).1.resend = s.resend := by unfold State.closeAtStop; split <;> simp
@[simp] theorem State.closeAtStop_arbiter (c : ChanId) : (s.closeAtStop c).1.arbiter = s.arbiter := by unfold State.closeAtStop; split <;> simp
@[simp] theorem State.closeAtStop_pending (c : ChanId) : (s.closeAtStop c).1.pending = s.pending := by unfold State.closeAtStop; split <;> simp
@[simp] theorem State.closeAtStop_stopRequests (c : ChanId) : (s.closeAtStop c).1.stopRequests = s.stopRequests := by unfold State.closeAtStop; split <;> simp
@[simp] theorem State.closeAtStop_bank (c : ChanId) (j : BankId) : (s.closeAtStop c).1.bank j = s.bank j := by show (s.closeAtStop c).1.banks[j.val] = _; rw [State.closeAtStop_banks]; rfl
@[simp] theorem State.closeAtStop_lane (c : ChanId) (j : LaneId) : (s.closeAtStop c).1.lane j = s.lane j := by show (s.closeAtStop c).1.lanes[j.val] = _; rw [State.closeAtStop_lanes]; rfl
@[simp] theorem State.closeAtStop_watch (c : ChanId) (j : WatchId) : (s.closeAtStop c).1.watch j = s.watch j := by show (s.closeAtStop c).1.watches[j.val] = _; rw [State.closeAtStop_watches]; rfl
@[simp] theorem State.closeAtStop_ring (c : ChanId) (j : ChanId) : (s.closeAtStop c).1.ring j = s.ring j := by show (s.closeAtStop c).1.engine.rings[j.val] = _; rw [State.closeAtStop_engine]; rfl

/-! ## stopChannel -/

@[simp] theorem State.stopChannel_link (c : ChanId) (tag : Byte) : (s.stopChannel c tag).1.link = s.link := by simp [State.stopChannel]
@[simp] theorem State.stopChannel_coeffMem (c : ChanId) (tag : Byte) : (s.stopChannel c tag).1.coeffMem = s.coeffMem := by simp [State.stopChannel]
@[simp] theorem State.stopChannel_pool (c : ChanId) (tag : Byte) : (s.stopChannel c tag).1.pool = s.pool := by simp [State.stopChannel]
@[simp] theorem State.stopChannel_banks (c : ChanId) (tag : Byte) : (s.stopChannel c tag).1.banks = s.banks := by simp [State.stopChannel]
@[simp] theorem State.stopChannel_lanes (c : ChanId) (tag : Byte) : (s.stopChannel c tag).1.lanes = s.lanes := by simp [State.stopChannel]
@[simp] theorem State.stopChannel_engine (c : ChanId) (tag : Byte) : (s.stopChannel c tag).1.engine = s.engine := by simp [State.stopChannel]
@[simp] theorem State.stopChannel_watches (c : ChanId) (tag : Byte) : (s.stopChannel c tag).1.watches = s.watches := by simp [State.stopChannel]
@[simp] theorem State.stopChannel_resend (c : ChanId) (tag : Byte) : (s.stopChannel c tag).1.resend = s.resend := by simp [State.stopChannel]
@[simp] theorem State.stopChannel_arbiter (c : ChanId) (tag : Byte) : (s.stopChannel c tag).1.arbiter = s.arbiter := by simp [State.stopChannel]
@[simp] theorem State.stopChannel_pending (c : ChanId) (tag : Byte) : (s.stopChannel c tag).1.pending = s.pending := by simp [State.stopChannel]
@[simp] theorem State.stopChannel_stopRequests (c : ChanId) (tag : Byte) :
    (s.stopChannel c tag).1.stopRequests = s.stopRequests.filter (· != c) := by simp [State.stopChannel]
@[simp] theorem State.stopChannel_bank (c : ChanId) (tag : Byte) (j : BankId) : (s.stopChannel c tag).1.bank j = s.bank j := by show (s.stopChannel c tag).1.banks[j.val] = _; rw [State.stopChannel_banks]; rfl
@[simp] theorem State.stopChannel_lane (c : ChanId) (tag : Byte) (j : LaneId) : (s.stopChannel c tag).1.lane j = s.lane j := by show (s.stopChannel c tag).1.lanes[j.val] = _; rw [State.stopChannel_lanes]; rfl
@[simp] theorem State.stopChannel_watch (c : ChanId) (tag : Byte) (j : WatchId) : (s.stopChannel c tag).1.watch j = s.watch j := by show (s.stopChannel c tag).1.watches[j.val] = _; rw [State.stopChannel_watches]; rfl
@[simp] theorem State.stopChannel_ring (c : ChanId) (tag : Byte) (j : ChanId) : (s.stopChannel c tag).1.ring j = s.ring j := by show (s.stopChannel c tag).1.engine.rings[j.val] = _; rw [State.stopChannel_engine]; rfl

/-! ## strike -/

@[simp] theorem State.strike_link (c : ChanId) : (s.strike c).link = s.link := rfl
@[simp] theorem State.strike_channels (c : ChanId) : (s.strike c).channels = s.channels := rfl
@[simp] theorem State.strike_coeffMem (c : ChanId) : (s.strike c).coeffMem = s.coeffMem := rfl
@[simp] theorem State.strike_pool (c : ChanId) : (s.strike c).pool = s.pool := rfl
@[simp] theorem State.strike_banks (c : ChanId) : (s.strike c).banks = s.banks := rfl
@[simp] theorem State.strike_lanes (c : ChanId) : (s.strike c).lanes = s.lanes := rfl
@[simp] theorem State.strike_watches (c : ChanId) : (s.strike c).watches = s.watches := rfl
@[simp] theorem State.strike_delivery (c : ChanId) : (s.strike c).delivery = s.delivery := rfl
@[simp] theorem State.strike_resend (c : ChanId) : (s.strike c).resend = s.resend := rfl
@[simp] theorem State.strike_arbiter (c : ChanId) : (s.strike c).arbiter = s.arbiter := rfl
@[simp] theorem State.strike_pending (c : ChanId) : (s.strike c).pending = s.pending := rfl
@[simp] theorem State.strike_stopRequests (c : ChanId) : (s.strike c).stopRequests = s.stopRequests := rfl
@[simp] theorem State.strike_chan (c : ChanId) (j : ChanId) : (s.strike c).chan j = s.chan j := by show (s.strike c).channels[j.val] = _; rw [State.strike_channels]; rfl
@[simp] theorem State.strike_bank (c : ChanId) (j : BankId) : (s.strike c).bank j = s.bank j := by show (s.strike c).banks[j.val] = _; rw [State.strike_banks]; rfl
@[simp] theorem State.strike_lane (c : ChanId) (j : LaneId) : (s.strike c).lane j = s.lane j := by show (s.strike c).lanes[j.val] = _; rw [State.strike_lanes]; rfl
@[simp] theorem State.strike_watch (c : ChanId) (j : WatchId) : (s.strike c).watch j = s.watch j := by show (s.strike c).watches[j.val] = _; rw [State.strike_watches]; rfl
@[simp] theorem State.strike_deliv (c : ChanId) (j : ChanId) : (s.strike c).deliv j = s.deliv j := by show (s.strike c).delivery[j.val] = _; rw [State.strike_delivery]; rfl

/-! ## clearChannel -/

@[simp] theorem State.clearChannel_link (c : ChanId) : (s.clearChannel c).link = s.link := by simp [State.clearChannel]
@[simp] theorem State.clearChannel_coeffMem (c : ChanId) : (s.clearChannel c).coeffMem = s.coeffMem := by simp [State.clearChannel]
@[simp] theorem State.clearChannel_pool (c : ChanId) : (s.clearChannel c).pool = s.pool := by simp [State.clearChannel]
@[simp] theorem State.clearChannel_lanes (c : ChanId) : (s.clearChannel c).lanes = s.lanes := by simp [State.clearChannel]
@[simp] theorem State.clearChannel_engine (c : ChanId) : (s.clearChannel c).engine = s.engine := by simp [State.clearChannel]
@[simp] theorem State.clearChannel_watches (c : ChanId) : (s.clearChannel c).watches = s.watches := by simp [State.clearChannel]
@[simp] theorem State.clearChannel_delivery (c : ChanId) : (s.clearChannel c).delivery = s.delivery := by simp [State.clearChannel]
@[simp] theorem State.clearChannel_resend (c : ChanId) : (s.clearChannel c).resend = s.resend := by simp [State.clearChannel]
@[simp] theorem State.clearChannel_pending (c : ChanId) : (s.clearChannel c).pending = s.pending := by simp [State.clearChannel]
@[simp] theorem State.clearChannel_stopRequests (c : ChanId) : (s.clearChannel c).stopRequests = s.stopRequests := by simp [State.clearChannel]
@[simp] theorem State.clearChannel_lane (c : ChanId) (j : LaneId) : (s.clearChannel c).lane j = s.lane j := by show (s.clearChannel c).lanes[j.val] = _; rw [State.clearChannel_lanes]; rfl
@[simp] theorem State.clearChannel_watch (c : ChanId) (j : WatchId) : (s.clearChannel c).watch j = s.watch j := by show (s.clearChannel c).watches[j.val] = _; rw [State.clearChannel_watches]; rfl
@[simp] theorem State.clearChannel_deliv (c : ChanId) (j : ChanId) : (s.clearChannel c).deliv j = s.deliv j := by show (s.clearChannel c).delivery[j.val] = _; rw [State.clearChannel_delivery]; rfl
@[simp] theorem State.clearChannel_ring (c : ChanId) (j : ChanId) : (s.clearChannel c).ring j = s.ring j := by show (s.clearChannel c).engine.rings[j.val] = _; rw [State.clearChannel_engine]; rfl

/-! ## swapNow -/

@[simp] theorem State.swapNow_link (c : ChanId) (b : BankId) (tag : Byte) : (s.swapNow c b tag).link = s.link := by simp [State.swapNow]
@[simp] theorem State.swapNow_coeffMem (c : ChanId) (b : BankId) (tag : Byte) : (s.swapNow c b tag).coeffMem = s.coeffMem := by simp [State.swapNow]
@[simp] theorem State.swapNow_pool (c : ChanId) (b : BankId) (tag : Byte) : (s.swapNow c b tag).pool = s.pool := by simp [State.swapNow]
@[simp] theorem State.swapNow_lanes (c : ChanId) (b : BankId) (tag : Byte) : (s.swapNow c b tag).lanes = s.lanes := by simp [State.swapNow]
@[simp] theorem State.swapNow_engine (c : ChanId) (b : BankId) (tag : Byte) : (s.swapNow c b tag).engine = s.engine := by simp [State.swapNow]
@[simp] theorem State.swapNow_watches (c : ChanId) (b : BankId) (tag : Byte) : (s.swapNow c b tag).watches = s.watches := by simp [State.swapNow]
@[simp] theorem State.swapNow_delivery (c : ChanId) (b : BankId) (tag : Byte) : (s.swapNow c b tag).delivery = s.delivery := by simp [State.swapNow]
@[simp] theorem State.swapNow_resend (c : ChanId) (b : BankId) (tag : Byte) : (s.swapNow c b tag).resend = s.resend := by simp [State.swapNow]
@[simp] theorem State.swapNow_arbiter (c : ChanId) (b : BankId) (tag : Byte) : (s.swapNow c b tag).arbiter = s.arbiter := by simp [State.swapNow]
@[simp] theorem State.swapNow_pending (c : ChanId) (b : BankId) (tag : Byte) : (s.swapNow c b tag).pending = s.pending := by simp [State.swapNow]
@[simp] theorem State.swapNow_stopRequests (c : ChanId) (b : BankId) (tag : Byte) : (s.swapNow c b tag).stopRequests = s.stopRequests := by simp [State.swapNow]
@[simp] theorem State.swapNow_lane (c : ChanId) (b : BankId) (tag : Byte) (j : LaneId) : (s.swapNow c b tag).lane j = s.lane j := by show (s.swapNow c b tag).lanes[j.val] = _; rw [State.swapNow_lanes]; rfl
@[simp] theorem State.swapNow_watch (c : ChanId) (b : BankId) (tag : Byte) (j : WatchId) : (s.swapNow c b tag).watch j = s.watch j := by show (s.swapNow c b tag).watches[j.val] = _; rw [State.swapNow_watches]; rfl
@[simp] theorem State.swapNow_deliv (c : ChanId) (b : BankId) (tag : Byte) (j : ChanId) : (s.swapNow c b tag).deliv j = s.deliv j := by show (s.swapNow c b tag).delivery[j.val] = _; rw [State.swapNow_delivery]; rfl
@[simp] theorem State.swapNow_ring (c : ChanId) (b : BankId) (tag : Byte) (j : ChanId) : (s.swapNow c b tag).ring j = s.ring j := by show (s.swapNow c b tag).engine.rings[j.val] = _; rw [State.swapNow_engine]; rfl

/-! ## stageSwap -/

@[simp] theorem State.stageSwap_link (c : ChanId) (b : BankId) (tag : Byte) : (s.stageSwap c b tag).link = s.link := by simp [State.stageSwap]
@[simp] theorem State.stageSwap_coeffMem (c : ChanId) (b : BankId) (tag : Byte) : (s.stageSwap c b tag).coeffMem = s.coeffMem := by simp [State.stageSwap]
@[simp] theorem State.stageSwap_pool (c : ChanId) (b : BankId) (tag : Byte) : (s.stageSwap c b tag).pool = s.pool := by simp [State.stageSwap]
@[simp] theorem State.stageSwap_lanes (c : ChanId) (b : BankId) (tag : Byte) : (s.stageSwap c b tag).lanes = s.lanes := by simp [State.stageSwap]
@[simp] theorem State.stageSwap_engine (c : ChanId) (b : BankId) (tag : Byte) : (s.stageSwap c b tag).engine = s.engine := by simp [State.stageSwap]
@[simp] theorem State.stageSwap_watches (c : ChanId) (b : BankId) (tag : Byte) : (s.stageSwap c b tag).watches = s.watches := by simp [State.stageSwap]
@[simp] theorem State.stageSwap_delivery (c : ChanId) (b : BankId) (tag : Byte) : (s.stageSwap c b tag).delivery = s.delivery := by simp [State.stageSwap]
@[simp] theorem State.stageSwap_resend (c : ChanId) (b : BankId) (tag : Byte) : (s.stageSwap c b tag).resend = s.resend := by simp [State.stageSwap]
@[simp] theorem State.stageSwap_arbiter (c : ChanId) (b : BankId) (tag : Byte) : (s.stageSwap c b tag).arbiter = s.arbiter := by simp [State.stageSwap]
@[simp] theorem State.stageSwap_pending (c : ChanId) (b : BankId) (tag : Byte) : (s.stageSwap c b tag).pending = s.pending := by simp [State.stageSwap]
@[simp] theorem State.stageSwap_stopRequests (c : ChanId) (b : BankId) (tag : Byte) : (s.stageSwap c b tag).stopRequests = s.stopRequests := by simp [State.stageSwap]
@[simp] theorem State.stageSwap_lane (c : ChanId) (b : BankId) (tag : Byte) (j : LaneId) : (s.stageSwap c b tag).lane j = s.lane j := by show (s.stageSwap c b tag).lanes[j.val] = _; rw [State.stageSwap_lanes]; rfl
@[simp] theorem State.stageSwap_watch (c : ChanId) (b : BankId) (tag : Byte) (j : WatchId) : (s.stageSwap c b tag).watch j = s.watch j := by show (s.stageSwap c b tag).watches[j.val] = _; rw [State.stageSwap_watches]; rfl
@[simp] theorem State.stageSwap_deliv (c : ChanId) (b : BankId) (tag : Byte) (j : ChanId) : (s.stageSwap c b tag).deliv j = s.deliv j := by show (s.stageSwap c b tag).delivery[j.val] = _; rw [State.stageSwap_delivery]; rfl
@[simp] theorem State.stageSwap_ring (c : ChanId) (b : BankId) (tag : Byte) (j : ChanId) : (s.stageSwap c b tag).ring j = s.ring j := by show (s.stageSwap c b tag).engine.rings[j.val] = _; rw [State.stageSwap_engine]; rfl

/-! ## openBank -/

@[simp] theorem State.openBank_link (b : BankId) (t : Nat) : (s.openBank b t).link = s.link := rfl
@[simp] theorem State.openBank_channels (b : BankId) (t : Nat) : (s.openBank b t).channels = s.channels := rfl
@[simp] theorem State.openBank_coeffMem (b : BankId) (t : Nat) : (s.openBank b t).coeffMem = s.coeffMem := rfl
@[simp] theorem State.openBank_lanes (b : BankId) (t : Nat) : (s.openBank b t).lanes = s.lanes := rfl
@[simp] theorem State.openBank_engine (b : BankId) (t : Nat) : (s.openBank b t).engine = s.engine := rfl
@[simp] theorem State.openBank_watches (b : BankId) (t : Nat) : (s.openBank b t).watches = s.watches := rfl
@[simp] theorem State.openBank_delivery (b : BankId) (t : Nat) : (s.openBank b t).delivery = s.delivery := rfl
@[simp] theorem State.openBank_resend (b : BankId) (t : Nat) : (s.openBank b t).resend = s.resend := rfl
@[simp] theorem State.openBank_arbiter (b : BankId) (t : Nat) : (s.openBank b t).arbiter = s.arbiter := rfl
@[simp] theorem State.openBank_pending (b : BankId) (t : Nat) : (s.openBank b t).pending = s.pending := rfl
@[simp] theorem State.openBank_stopRequests (b : BankId) (t : Nat) : (s.openBank b t).stopRequests = s.stopRequests := rfl
@[simp] theorem State.openBank_chan (b : BankId) (t : Nat) (j : ChanId) : (s.openBank b t).chan j = s.chan j := by show (s.openBank b t).channels[j.val] = _; rw [State.openBank_channels]; rfl
@[simp] theorem State.openBank_lane (b : BankId) (t : Nat) (j : LaneId) : (s.openBank b t).lane j = s.lane j := by show (s.openBank b t).lanes[j.val] = _; rw [State.openBank_lanes]; rfl
@[simp] theorem State.openBank_watch (b : BankId) (t : Nat) (j : WatchId) : (s.openBank b t).watch j = s.watch j := by show (s.openBank b t).watches[j.val] = _; rw [State.openBank_watches]; rfl
@[simp] theorem State.openBank_deliv (b : BankId) (t : Nat) (j : ChanId) : (s.openBank b t).deliv j = s.deliv j := by show (s.openBank b t).delivery[j.val] = _; rw [State.openBank_delivery]; rfl
@[simp] theorem State.openBank_ring (b : BankId) (t : Nat) (j : ChanId) : (s.openBank b t).ring j = s.ring j := by show (s.openBank b t).engine.rings[j.val] = _; rw [State.openBank_engine]; rfl

/-! ## freeBank -/

@[simp] theorem State.freeBank_link (b : BankId) : (s.freeBank b).link = s.link := rfl
@[simp] theorem State.freeBank_channels (b : BankId) : (s.freeBank b).channels = s.channels := rfl
@[simp] theorem State.freeBank_coeffMem (b : BankId) : (s.freeBank b).coeffMem = s.coeffMem := rfl
@[simp] theorem State.freeBank_lanes (b : BankId) : (s.freeBank b).lanes = s.lanes := rfl
@[simp] theorem State.freeBank_engine (b : BankId) : (s.freeBank b).engine = s.engine := rfl
@[simp] theorem State.freeBank_watches (b : BankId) : (s.freeBank b).watches = s.watches := rfl
@[simp] theorem State.freeBank_delivery (b : BankId) : (s.freeBank b).delivery = s.delivery := rfl
@[simp] theorem State.freeBank_resend (b : BankId) : (s.freeBank b).resend = s.resend := rfl
@[simp] theorem State.freeBank_arbiter (b : BankId) : (s.freeBank b).arbiter = s.arbiter := rfl
@[simp] theorem State.freeBank_pending (b : BankId) : (s.freeBank b).pending = s.pending := rfl
@[simp] theorem State.freeBank_stopRequests (b : BankId) : (s.freeBank b).stopRequests = s.stopRequests := rfl
@[simp] theorem State.freeBank_chan (b : BankId) (j : ChanId) : (s.freeBank b).chan j = s.chan j := by show (s.freeBank b).channels[j.val] = _; rw [State.freeBank_channels]; rfl
@[simp] theorem State.freeBank_lane (b : BankId) (j : LaneId) : (s.freeBank b).lane j = s.lane j := by show (s.freeBank b).lanes[j.val] = _; rw [State.freeBank_lanes]; rfl
@[simp] theorem State.freeBank_watch (b : BankId) (j : WatchId) : (s.freeBank b).watch j = s.watch j := by show (s.freeBank b).watches[j.val] = _; rw [State.freeBank_watches]; rfl
@[simp] theorem State.freeBank_deliv (b : BankId) (j : ChanId) : (s.freeBank b).deliv j = s.deliv j := by show (s.freeBank b).delivery[j.val] = _; rw [State.freeBank_delivery]; rfl
@[simp] theorem State.freeBank_ring (b : BankId) (j : ChanId) : (s.freeBank b).ring j = s.ring j := by show (s.freeBank b).engine.rings[j.val] = _; rw [State.freeBank_engine]; rfl

/-! ## setCoeff -/

@[simp] theorem State.setCoeff_link (b : Bank) (k : Nat) (w : StoredWord) : (s.setCoeff b k w).link = s.link := by unfold State.setCoeff; split <;> rfl
@[simp] theorem State.setCoeff_channels (b : Bank) (k : Nat) (w : StoredWord) : (s.setCoeff b k w).channels = s.channels := by unfold State.setCoeff; split <;> rfl
@[simp] theorem State.setCoeff_pool (b : Bank) (k : Nat) (w : StoredWord) : (s.setCoeff b k w).pool = s.pool := by unfold State.setCoeff; split <;> rfl
@[simp] theorem State.setCoeff_banks (b : Bank) (k : Nat) (w : StoredWord) : (s.setCoeff b k w).banks = s.banks := by unfold State.setCoeff; split <;> rfl
@[simp] theorem State.setCoeff_lanes (b : Bank) (k : Nat) (w : StoredWord) : (s.setCoeff b k w).lanes = s.lanes := by unfold State.setCoeff; split <;> rfl
@[simp] theorem State.setCoeff_engine (b : Bank) (k : Nat) (w : StoredWord) : (s.setCoeff b k w).engine = s.engine := by unfold State.setCoeff; split <;> rfl
@[simp] theorem State.setCoeff_watches (b : Bank) (k : Nat) (w : StoredWord) : (s.setCoeff b k w).watches = s.watches := by unfold State.setCoeff; split <;> rfl
@[simp] theorem State.setCoeff_delivery (b : Bank) (k : Nat) (w : StoredWord) : (s.setCoeff b k w).delivery = s.delivery := by unfold State.setCoeff; split <;> rfl
@[simp] theorem State.setCoeff_resend (b : Bank) (k : Nat) (w : StoredWord) : (s.setCoeff b k w).resend = s.resend := by unfold State.setCoeff; split <;> rfl
@[simp] theorem State.setCoeff_arbiter (b : Bank) (k : Nat) (w : StoredWord) : (s.setCoeff b k w).arbiter = s.arbiter := by unfold State.setCoeff; split <;> rfl
@[simp] theorem State.setCoeff_pending (b : Bank) (k : Nat) (w : StoredWord) : (s.setCoeff b k w).pending = s.pending := by unfold State.setCoeff; split <;> rfl
@[simp] theorem State.setCoeff_stopRequests (b : Bank) (k : Nat) (w : StoredWord) : (s.setCoeff b k w).stopRequests = s.stopRequests := by unfold State.setCoeff; split <;> rfl
@[simp] theorem State.setCoeff_chan (b : Bank) (k : Nat) (w : StoredWord) (j : ChanId) : (s.setCoeff b k w).chan j = s.chan j := by show (s.setCoeff b k w).channels[j.val] = _; rw [State.setCoeff_channels]; rfl
@[simp] theorem State.setCoeff_bank (b : Bank) (k : Nat) (w : StoredWord) (j : BankId) : (s.setCoeff b k w).bank j = s.bank j := by show (s.setCoeff b k w).banks[j.val] = _; rw [State.setCoeff_banks]; rfl
@[simp] theorem State.setCoeff_lane (b : Bank) (k : Nat) (w : StoredWord) (j : LaneId) : (s.setCoeff b k w).lane j = s.lane j := by show (s.setCoeff b k w).lanes[j.val] = _; rw [State.setCoeff_lanes]; rfl
@[simp] theorem State.setCoeff_watch (b : Bank) (k : Nat) (w : StoredWord) (j : WatchId) : (s.setCoeff b k w).watch j = s.watch j := by show (s.setCoeff b k w).watches[j.val] = _; rw [State.setCoeff_watches]; rfl
@[simp] theorem State.setCoeff_deliv (b : Bank) (k : Nat) (w : StoredWord) (j : ChanId) : (s.setCoeff b k w).deliv j = s.deliv j := by show (s.setCoeff b k w).delivery[j.val] = _; rw [State.setCoeff_delivery]; rfl
@[simp] theorem State.setCoeff_ring (b : Bank) (k : Nat) (w : StoredWord) (j : ChanId) : (s.setCoeff b k w).ring j = s.ring j := by show (s.setCoeff b k w).engine.rings[j.val] = _; rw [State.setCoeff_engine]; rfl

/-! ## storeCoeffs -/

@[simp] theorem State.storeCoeffs_link (b : Bank) (k : Nat) (xs : List Sample) : (s.storeCoeffs b k xs).link = s.link := by
  induction xs generalizing s k with
  | nil => rfl
  | cons x xs ih => rw [State.storeCoeffs, ih, State.setCoeff_link]
@[simp] theorem State.storeCoeffs_channels (b : Bank) (k : Nat) (xs : List Sample) : (s.storeCoeffs b k xs).channels = s.channels := by
  induction xs generalizing s k with
  | nil => rfl
  | cons x xs ih => rw [State.storeCoeffs, ih, State.setCoeff_channels]
@[simp] theorem State.storeCoeffs_pool (b : Bank) (k : Nat) (xs : List Sample) : (s.storeCoeffs b k xs).pool = s.pool := by
  induction xs generalizing s k with
  | nil => rfl
  | cons x xs ih => rw [State.storeCoeffs, ih, State.setCoeff_pool]
@[simp] theorem State.storeCoeffs_banks (b : Bank) (k : Nat) (xs : List Sample) : (s.storeCoeffs b k xs).banks = s.banks := by
  induction xs generalizing s k with
  | nil => rfl
  | cons x xs ih => rw [State.storeCoeffs, ih, State.setCoeff_banks]
@[simp] theorem State.storeCoeffs_lanes (b : Bank) (k : Nat) (xs : List Sample) : (s.storeCoeffs b k xs).lanes = s.lanes := by
  induction xs generalizing s k with
  | nil => rfl
  | cons x xs ih => rw [State.storeCoeffs, ih, State.setCoeff_lanes]
@[simp] theorem State.storeCoeffs_engine (b : Bank) (k : Nat) (xs : List Sample) : (s.storeCoeffs b k xs).engine = s.engine := by
  induction xs generalizing s k with
  | nil => rfl
  | cons x xs ih => rw [State.storeCoeffs, ih, State.setCoeff_engine]
@[simp] theorem State.storeCoeffs_watches (b : Bank) (k : Nat) (xs : List Sample) : (s.storeCoeffs b k xs).watches = s.watches := by
  induction xs generalizing s k with
  | nil => rfl
  | cons x xs ih => rw [State.storeCoeffs, ih, State.setCoeff_watches]
@[simp] theorem State.storeCoeffs_delivery (b : Bank) (k : Nat) (xs : List Sample) : (s.storeCoeffs b k xs).delivery = s.delivery := by
  induction xs generalizing s k with
  | nil => rfl
  | cons x xs ih => rw [State.storeCoeffs, ih, State.setCoeff_delivery]
@[simp] theorem State.storeCoeffs_resend (b : Bank) (k : Nat) (xs : List Sample) : (s.storeCoeffs b k xs).resend = s.resend := by
  induction xs generalizing s k with
  | nil => rfl
  | cons x xs ih => rw [State.storeCoeffs, ih, State.setCoeff_resend]
@[simp] theorem State.storeCoeffs_arbiter (b : Bank) (k : Nat) (xs : List Sample) : (s.storeCoeffs b k xs).arbiter = s.arbiter := by
  induction xs generalizing s k with
  | nil => rfl
  | cons x xs ih => rw [State.storeCoeffs, ih, State.setCoeff_arbiter]
@[simp] theorem State.storeCoeffs_pending (b : Bank) (k : Nat) (xs : List Sample) : (s.storeCoeffs b k xs).pending = s.pending := by
  induction xs generalizing s k with
  | nil => rfl
  | cons x xs ih => rw [State.storeCoeffs, ih, State.setCoeff_pending]
@[simp] theorem State.storeCoeffs_stopRequests (b : Bank) (k : Nat) (xs : List Sample) : (s.storeCoeffs b k xs).stopRequests = s.stopRequests := by
  induction xs generalizing s k with
  | nil => rfl
  | cons x xs ih => rw [State.storeCoeffs, ih, State.setCoeff_stopRequests]
@[simp] theorem State.storeCoeffs_chan (b : Bank) (k : Nat) (xs : List Sample) (j : ChanId) : (s.storeCoeffs b k xs).chan j = s.chan j := by show (s.storeCoeffs b k xs).channels[j.val] = _; rw [State.storeCoeffs_channels]; rfl
@[simp] theorem State.storeCoeffs_bank (b : Bank) (k : Nat) (xs : List Sample) (j : BankId) : (s.storeCoeffs b k xs).bank j = s.bank j := by show (s.storeCoeffs b k xs).banks[j.val] = _; rw [State.storeCoeffs_banks]; rfl
@[simp] theorem State.storeCoeffs_lane (b : Bank) (k : Nat) (xs : List Sample) (j : LaneId) : (s.storeCoeffs b k xs).lane j = s.lane j := by show (s.storeCoeffs b k xs).lanes[j.val] = _; rw [State.storeCoeffs_lanes]; rfl
@[simp] theorem State.storeCoeffs_watch (b : Bank) (k : Nat) (xs : List Sample) (j : WatchId) : (s.storeCoeffs b k xs).watch j = s.watch j := by show (s.storeCoeffs b k xs).watches[j.val] = _; rw [State.storeCoeffs_watches]; rfl
@[simp] theorem State.storeCoeffs_deliv (b : Bank) (k : Nat) (xs : List Sample) (j : ChanId) : (s.storeCoeffs b k xs).deliv j = s.deliv j := by show (s.storeCoeffs b k xs).delivery[j.val] = _; rw [State.storeCoeffs_delivery]; rfl
@[simp] theorem State.storeCoeffs_ring (b : Bank) (k : Nat) (xs : List Sample) (j : ChanId) : (s.storeCoeffs b k xs).ring j = s.ring j := by show (s.storeCoeffs b k xs).engine.rings[j.val] = _; rw [State.storeCoeffs_engine]; rfl

/-! ## upsetCoeffs -/

@[simp] theorem State.upsetCoeffs_link (b : Bank) (us : List (Fin 256 × Sample)) : (s.upsetCoeffs b us).link = s.link := by
  unfold State.upsetCoeffs
  induction us generalizing s with
  | nil => rfl
  | cons u us ih => rw [List.foldl_cons, ih]; split <;> simp
@[simp] theorem State.upsetCoeffs_channels (b : Bank) (us : List (Fin 256 × Sample)) : (s.upsetCoeffs b us).channels = s.channels := by
  unfold State.upsetCoeffs
  induction us generalizing s with
  | nil => rfl
  | cons u us ih => rw [List.foldl_cons, ih]; split <;> simp
@[simp] theorem State.upsetCoeffs_pool (b : Bank) (us : List (Fin 256 × Sample)) : (s.upsetCoeffs b us).pool = s.pool := by
  unfold State.upsetCoeffs
  induction us generalizing s with
  | nil => rfl
  | cons u us ih => rw [List.foldl_cons, ih]; split <;> simp
@[simp] theorem State.upsetCoeffs_banks (b : Bank) (us : List (Fin 256 × Sample)) : (s.upsetCoeffs b us).banks = s.banks := by
  unfold State.upsetCoeffs
  induction us generalizing s with
  | nil => rfl
  | cons u us ih => rw [List.foldl_cons, ih]; split <;> simp
@[simp] theorem State.upsetCoeffs_lanes (b : Bank) (us : List (Fin 256 × Sample)) : (s.upsetCoeffs b us).lanes = s.lanes := by
  unfold State.upsetCoeffs
  induction us generalizing s with
  | nil => rfl
  | cons u us ih => rw [List.foldl_cons, ih]; split <;> simp
@[simp] theorem State.upsetCoeffs_engine (b : Bank) (us : List (Fin 256 × Sample)) : (s.upsetCoeffs b us).engine = s.engine := by
  unfold State.upsetCoeffs
  induction us generalizing s with
  | nil => rfl
  | cons u us ih => rw [List.foldl_cons, ih]; split <;> simp
@[simp] theorem State.upsetCoeffs_watches (b : Bank) (us : List (Fin 256 × Sample)) : (s.upsetCoeffs b us).watches = s.watches := by
  unfold State.upsetCoeffs
  induction us generalizing s with
  | nil => rfl
  | cons u us ih => rw [List.foldl_cons, ih]; split <;> simp
@[simp] theorem State.upsetCoeffs_delivery (b : Bank) (us : List (Fin 256 × Sample)) : (s.upsetCoeffs b us).delivery = s.delivery := by
  unfold State.upsetCoeffs
  induction us generalizing s with
  | nil => rfl
  | cons u us ih => rw [List.foldl_cons, ih]; split <;> simp
@[simp] theorem State.upsetCoeffs_resend (b : Bank) (us : List (Fin 256 × Sample)) : (s.upsetCoeffs b us).resend = s.resend := by
  unfold State.upsetCoeffs
  induction us generalizing s with
  | nil => rfl
  | cons u us ih => rw [List.foldl_cons, ih]; split <;> simp
@[simp] theorem State.upsetCoeffs_arbiter (b : Bank) (us : List (Fin 256 × Sample)) : (s.upsetCoeffs b us).arbiter = s.arbiter := by
  unfold State.upsetCoeffs
  induction us generalizing s with
  | nil => rfl
  | cons u us ih => rw [List.foldl_cons, ih]; split <;> simp
@[simp] theorem State.upsetCoeffs_pending (b : Bank) (us : List (Fin 256 × Sample)) : (s.upsetCoeffs b us).pending = s.pending := by
  unfold State.upsetCoeffs
  induction us generalizing s with
  | nil => rfl
  | cons u us ih => rw [List.foldl_cons, ih]; split <;> simp
@[simp] theorem State.upsetCoeffs_stopRequests (b : Bank) (us : List (Fin 256 × Sample)) : (s.upsetCoeffs b us).stopRequests = s.stopRequests := by
  unfold State.upsetCoeffs
  induction us generalizing s with
  | nil => rfl
  | cons u us ih => rw [List.foldl_cons, ih]; split <;> simp
@[simp] theorem State.upsetCoeffs_chan (b : Bank) (us : List (Fin 256 × Sample)) (j : ChanId) : (s.upsetCoeffs b us).chan j = s.chan j := by show (s.upsetCoeffs b us).channels[j.val] = _; rw [State.upsetCoeffs_channels]; rfl
@[simp] theorem State.upsetCoeffs_bank (b : Bank) (us : List (Fin 256 × Sample)) (j : BankId) : (s.upsetCoeffs b us).bank j = s.bank j := by show (s.upsetCoeffs b us).banks[j.val] = _; rw [State.upsetCoeffs_banks]; rfl
@[simp] theorem State.upsetCoeffs_lane (b : Bank) (us : List (Fin 256 × Sample)) (j : LaneId) : (s.upsetCoeffs b us).lane j = s.lane j := by show (s.upsetCoeffs b us).lanes[j.val] = _; rw [State.upsetCoeffs_lanes]; rfl
@[simp] theorem State.upsetCoeffs_watch (b : Bank) (us : List (Fin 256 × Sample)) (j : WatchId) : (s.upsetCoeffs b us).watch j = s.watch j := by show (s.upsetCoeffs b us).watches[j.val] = _; rw [State.upsetCoeffs_watches]; rfl
@[simp] theorem State.upsetCoeffs_deliv (b : Bank) (us : List (Fin 256 × Sample)) (j : ChanId) : (s.upsetCoeffs b us).deliv j = s.deliv j := by show (s.upsetCoeffs b us).delivery[j.val] = _; rw [State.upsetCoeffs_delivery]; rfl
@[simp] theorem State.upsetCoeffs_ring (b : Bank) (us : List (Fin 256 × Sample)) (j : ChanId) : (s.upsetCoeffs b us).ring j = s.ring j := by show (s.upsetCoeffs b us).engine.rings[j.val] = _; rw [State.upsetCoeffs_engine]; rfl

/-! ## setHolds -/

@[simp] theorem State.setHolds_link (es : List SnapEntry) (h : Bool) : (s.setHolds es h).link = s.link := by
  unfold State.setHolds
  induction es.filterMap (·.bank) generalizing s with
  | nil => rfl
  | cons b bs ih => rw [List.foldl_cons, ih]; rfl
@[simp] theorem State.setHolds_channels (es : List SnapEntry) (h : Bool) : (s.setHolds es h).channels = s.channels := by
  unfold State.setHolds
  induction es.filterMap (·.bank) generalizing s with
  | nil => rfl
  | cons b bs ih => rw [List.foldl_cons, ih]; rfl
@[simp] theorem State.setHolds_coeffMem (es : List SnapEntry) (h : Bool) : (s.setHolds es h).coeffMem = s.coeffMem := by
  unfold State.setHolds
  induction es.filterMap (·.bank) generalizing s with
  | nil => rfl
  | cons b bs ih => rw [List.foldl_cons, ih]; rfl
@[simp] theorem State.setHolds_pool (es : List SnapEntry) (h : Bool) : (s.setHolds es h).pool = s.pool := by
  unfold State.setHolds
  induction es.filterMap (·.bank) generalizing s with
  | nil => rfl
  | cons b bs ih => rw [List.foldl_cons, ih]; rfl
@[simp] theorem State.setHolds_lanes (es : List SnapEntry) (h : Bool) : (s.setHolds es h).lanes = s.lanes := by
  unfold State.setHolds
  induction es.filterMap (·.bank) generalizing s with
  | nil => rfl
  | cons b bs ih => rw [List.foldl_cons, ih]; rfl
@[simp] theorem State.setHolds_engine (es : List SnapEntry) (h : Bool) : (s.setHolds es h).engine = s.engine := by
  unfold State.setHolds
  induction es.filterMap (·.bank) generalizing s with
  | nil => rfl
  | cons b bs ih => rw [List.foldl_cons, ih]; rfl
@[simp] theorem State.setHolds_watches (es : List SnapEntry) (h : Bool) : (s.setHolds es h).watches = s.watches := by
  unfold State.setHolds
  induction es.filterMap (·.bank) generalizing s with
  | nil => rfl
  | cons b bs ih => rw [List.foldl_cons, ih]; rfl
@[simp] theorem State.setHolds_delivery (es : List SnapEntry) (h : Bool) : (s.setHolds es h).delivery = s.delivery := by
  unfold State.setHolds
  induction es.filterMap (·.bank) generalizing s with
  | nil => rfl
  | cons b bs ih => rw [List.foldl_cons, ih]; rfl
@[simp] theorem State.setHolds_resend (es : List SnapEntry) (h : Bool) : (s.setHolds es h).resend = s.resend := by
  unfold State.setHolds
  induction es.filterMap (·.bank) generalizing s with
  | nil => rfl
  | cons b bs ih => rw [List.foldl_cons, ih]; rfl
@[simp] theorem State.setHolds_arbiter (es : List SnapEntry) (h : Bool) : (s.setHolds es h).arbiter = s.arbiter := by
  unfold State.setHolds
  induction es.filterMap (·.bank) generalizing s with
  | nil => rfl
  | cons b bs ih => rw [List.foldl_cons, ih]; rfl
@[simp] theorem State.setHolds_pending (es : List SnapEntry) (h : Bool) : (s.setHolds es h).pending = s.pending := by
  unfold State.setHolds
  induction es.filterMap (·.bank) generalizing s with
  | nil => rfl
  | cons b bs ih => rw [List.foldl_cons, ih]; rfl
@[simp] theorem State.setHolds_stopRequests (es : List SnapEntry) (h : Bool) : (s.setHolds es h).stopRequests = s.stopRequests := by
  unfold State.setHolds
  induction es.filterMap (·.bank) generalizing s with
  | nil => rfl
  | cons b bs ih => rw [List.foldl_cons, ih]; rfl
@[simp] theorem State.setHolds_chan (es : List SnapEntry) (h : Bool) (j : ChanId) : (s.setHolds es h).chan j = s.chan j := by show (s.setHolds es h).channels[j.val] = _; rw [State.setHolds_channels]; rfl
@[simp] theorem State.setHolds_lane (es : List SnapEntry) (h : Bool) (j : LaneId) : (s.setHolds es h).lane j = s.lane j := by show (s.setHolds es h).lanes[j.val] = _; rw [State.setHolds_lanes]; rfl
@[simp] theorem State.setHolds_watch (es : List SnapEntry) (h : Bool) (j : WatchId) : (s.setHolds es h).watch j = s.watch j := by show (s.setHolds es h).watches[j.val] = _; rw [State.setHolds_watches]; rfl
@[simp] theorem State.setHolds_deliv (es : List SnapEntry) (h : Bool) (j : ChanId) : (s.setHolds es h).deliv j = s.deliv j := by show (s.setHolds es h).delivery[j.val] = _; rw [State.setHolds_delivery]; rfl
@[simp] theorem State.setHolds_ring (es : List SnapEntry) (h : Bool) (j : ChanId) : (s.setHolds es h).ring j = s.ring j := by show (s.setHolds es h).engine.rings[j.val] = _; rw [State.setHolds_engine]; rfl

/-! ## startDispatch -/

@[simp] theorem State.startDispatch_link (l : LaneId) (x : FifoEntry) : (s.startDispatch l x).link = s.link := by simp [State.startDispatch]
@[simp] theorem State.startDispatch_channels (l : LaneId) (x : FifoEntry) : (s.startDispatch l x).channels = s.channels := by simp [State.startDispatch]
@[simp] theorem State.startDispatch_coeffMem (l : LaneId) (x : FifoEntry) : (s.startDispatch l x).coeffMem = s.coeffMem := by simp [State.startDispatch]
@[simp] theorem State.startDispatch_pool (l : LaneId) (x : FifoEntry) : (s.startDispatch l x).pool = s.pool := by simp [State.startDispatch]
@[simp] theorem State.startDispatch_watches (l : LaneId) (x : FifoEntry) : (s.startDispatch l x).watches = s.watches := by simp [State.startDispatch]
@[simp] theorem State.startDispatch_delivery (l : LaneId) (x : FifoEntry) : (s.startDispatch l x).delivery = s.delivery := by simp [State.startDispatch]
@[simp] theorem State.startDispatch_resend (l : LaneId) (x : FifoEntry) : (s.startDispatch l x).resend = s.resend := by simp [State.startDispatch]
@[simp] theorem State.startDispatch_arbiter (l : LaneId) (x : FifoEntry) : (s.startDispatch l x).arbiter = s.arbiter := by simp [State.startDispatch]
@[simp] theorem State.startDispatch_pending (l : LaneId) (x : FifoEntry) : (s.startDispatch l x).pending = s.pending := by simp [State.startDispatch]
@[simp] theorem State.startDispatch_stopRequests (l : LaneId) (x : FifoEntry) : (s.startDispatch l x).stopRequests = s.stopRequests := by simp [State.startDispatch]
@[simp] theorem State.startDispatch_chan (l : LaneId) (x : FifoEntry) (j : ChanId) : (s.startDispatch l x).chan j = s.chan j := by show (s.startDispatch l x).channels[j.val] = _; rw [State.startDispatch_channels]; rfl
@[simp] theorem State.startDispatch_watch (l : LaneId) (x : FifoEntry) (j : WatchId) : (s.startDispatch l x).watch j = s.watch j := by show (s.startDispatch l x).watches[j.val] = _; rw [State.startDispatch_watches]; rfl
@[simp] theorem State.startDispatch_deliv (l : LaneId) (x : FifoEntry) (j : ChanId) : (s.startDispatch l x).deliv j = s.deliv j := by show (s.startDispatch l x).delivery[j.val] = _; rw [State.startDispatch_delivery]; rfl

/-! ## damageBank -/

@[simp] theorem State.damageBank_link (b : BankId) : (s.damageBank b).link = s.link := rfl
@[simp] theorem State.damageBank_channels (b : BankId) : (s.damageBank b).channels = s.channels := rfl
@[simp] theorem State.damageBank_coeffMem (b : BankId) : (s.damageBank b).coeffMem = s.coeffMem := rfl
@[simp] theorem State.damageBank_pool (b : BankId) : (s.damageBank b).pool = s.pool := rfl
@[simp] theorem State.damageBank_lanes (b : BankId) : (s.damageBank b).lanes = s.lanes := rfl
@[simp] theorem State.damageBank_engine (b : BankId) : (s.damageBank b).engine = s.engine := rfl
@[simp] theorem State.damageBank_watches (b : BankId) : (s.damageBank b).watches = s.watches := rfl
@[simp] theorem State.damageBank_delivery (b : BankId) : (s.damageBank b).delivery = s.delivery := rfl
@[simp] theorem State.damageBank_resend (b : BankId) : (s.damageBank b).resend = s.resend := rfl
@[simp] theorem State.damageBank_arbiter (b : BankId) : (s.damageBank b).arbiter = s.arbiter := rfl
@[simp] theorem State.damageBank_pending (b : BankId) : (s.damageBank b).pending = s.pending := rfl
@[simp] theorem State.damageBank_stopRequests (b : BankId) : (s.damageBank b).stopRequests = s.stopRequests := rfl
@[simp] theorem State.damageBank_chan (b : BankId) (j : ChanId) : (s.damageBank b).chan j = s.chan j := by show (s.damageBank b).channels[j.val] = _; rw [State.damageBank_channels]; rfl
@[simp] theorem State.damageBank_lane (b : BankId) (j : LaneId) : (s.damageBank b).lane j = s.lane j := by show (s.damageBank b).lanes[j.val] = _; rw [State.damageBank_lanes]; rfl
@[simp] theorem State.damageBank_watch (b : BankId) (j : WatchId) : (s.damageBank b).watch j = s.watch j := by show (s.damageBank b).watches[j.val] = _; rw [State.damageBank_watches]; rfl
@[simp] theorem State.damageBank_deliv (b : BankId) (j : ChanId) : (s.damageBank b).deliv j = s.deliv j := by show (s.damageBank b).delivery[j.val] = _; rw [State.damageBank_delivery]; rfl
@[simp] theorem State.damageBank_ring (b : BankId) (j : ChanId) : (s.damageBank b).ring j = s.ring j := by show (s.damageBank b).engine.rings[j.val] = _; rw [State.damageBank_engine]; rfl

/-! ## markDamage -/

@[simp] theorem State.markDamage_link (d : Dispatch) (c : ChanId) (b : BankId) (k : Nat) : (s.markDamage d c b k).link = s.link := by simp [State.markDamage]
@[simp] theorem State.markDamage_channels (d : Dispatch) (c : ChanId) (b : BankId) (k : Nat) : (s.markDamage d c b k).channels = s.channels := by simp [State.markDamage]
@[simp] theorem State.markDamage_pool (d : Dispatch) (c : ChanId) (b : BankId) (k : Nat) : (s.markDamage d c b k).pool = s.pool := by simp [State.markDamage]
@[simp] theorem State.markDamage_lanes (d : Dispatch) (c : ChanId) (b : BankId) (k : Nat) : (s.markDamage d c b k).lanes = s.lanes := by simp [State.markDamage]
@[simp] theorem State.markDamage_watches (d : Dispatch) (c : ChanId) (b : BankId) (k : Nat) : (s.markDamage d c b k).watches = s.watches := by simp [State.markDamage]
@[simp] theorem State.markDamage_delivery (d : Dispatch) (c : ChanId) (b : BankId) (k : Nat) : (s.markDamage d c b k).delivery = s.delivery := by simp [State.markDamage]
@[simp] theorem State.markDamage_resend (d : Dispatch) (c : ChanId) (b : BankId) (k : Nat) : (s.markDamage d c b k).resend = s.resend := by simp [State.markDamage]
@[simp] theorem State.markDamage_arbiter (d : Dispatch) (c : ChanId) (b : BankId) (k : Nat) : (s.markDamage d c b k).arbiter = s.arbiter := by simp [State.markDamage]
@[simp] theorem State.markDamage_pending (d : Dispatch) (c : ChanId) (b : BankId) (k : Nat) : (s.markDamage d c b k).pending = s.pending := by simp [State.markDamage]
@[simp] theorem State.markDamage_stopRequests (d : Dispatch) (c : ChanId) (b : BankId) (k : Nat) : (s.markDamage d c b k).stopRequests = s.stopRequests := by simp [State.markDamage]
@[simp] theorem State.markDamage_chan (d : Dispatch) (c : ChanId) (b : BankId) (k : Nat) (j : ChanId) : (s.markDamage d c b k).chan j = s.chan j := by show (s.markDamage d c b k).channels[j.val] = _; rw [State.markDamage_channels]; rfl
@[simp] theorem State.markDamage_lane (d : Dispatch) (c : ChanId) (b : BankId) (k : Nat) (j : LaneId) : (s.markDamage d c b k).lane j = s.lane j := by show (s.markDamage d c b k).lanes[j.val] = _; rw [State.markDamage_lanes]; rfl
@[simp] theorem State.markDamage_watch (d : Dispatch) (c : ChanId) (b : BankId) (k : Nat) (j : WatchId) : (s.markDamage d c b k).watch j = s.watch j := by show (s.markDamage d c b k).watches[j.val] = _; rw [State.markDamage_watches]; rfl
@[simp] theorem State.markDamage_deliv (d : Dispatch) (c : ChanId) (b : BankId) (k : Nat) (j : ChanId) : (s.markDamage d c b k).deliv j = s.deliv j := by show (s.markDamage d c b k).delivery[j.val] = _; rw [State.markDamage_delivery]; rfl

/-! ## upsetHistory -/

@[simp] theorem State.upsetHistory_link (d : Dispatch) (bad : List (ChanId × Fin 256)) : (s.upsetHistory d bad).link = s.link := by
  suffices h : ∀ (p : State → ChanId × Fin 256 → Bool) (s : State), (bad.foldl (fun s q =>
      if p s q then s.modRing q.1 fun r => r.modify (q.2.val - 1) spoil else s) s).link = s.link from
    h (fun s q => s.readsHistory d q.1 q.2.val) s
  intro p s
  induction bad generalizing s with
  | nil => rfl
  | cons q bad ih => rw [List.foldl_cons, ih]; split <;> rfl
@[simp] theorem State.upsetHistory_channels (d : Dispatch) (bad : List (ChanId × Fin 256)) : (s.upsetHistory d bad).channels = s.channels := by
  suffices h : ∀ (p : State → ChanId × Fin 256 → Bool) (s : State), (bad.foldl (fun s q =>
      if p s q then s.modRing q.1 fun r => r.modify (q.2.val - 1) spoil else s) s).channels = s.channels from
    h (fun s q => s.readsHistory d q.1 q.2.val) s
  intro p s
  induction bad generalizing s with
  | nil => rfl
  | cons q bad ih => rw [List.foldl_cons, ih]; split <;> rfl
@[simp] theorem State.upsetHistory_coeffMem (d : Dispatch) (bad : List (ChanId × Fin 256)) : (s.upsetHistory d bad).coeffMem = s.coeffMem := by
  suffices h : ∀ (p : State → ChanId × Fin 256 → Bool) (s : State), (bad.foldl (fun s q =>
      if p s q then s.modRing q.1 fun r => r.modify (q.2.val - 1) spoil else s) s).coeffMem = s.coeffMem from
    h (fun s q => s.readsHistory d q.1 q.2.val) s
  intro p s
  induction bad generalizing s with
  | nil => rfl
  | cons q bad ih => rw [List.foldl_cons, ih]; split <;> rfl
@[simp] theorem State.upsetHistory_pool (d : Dispatch) (bad : List (ChanId × Fin 256)) : (s.upsetHistory d bad).pool = s.pool := by
  suffices h : ∀ (p : State → ChanId × Fin 256 → Bool) (s : State), (bad.foldl (fun s q =>
      if p s q then s.modRing q.1 fun r => r.modify (q.2.val - 1) spoil else s) s).pool = s.pool from
    h (fun s q => s.readsHistory d q.1 q.2.val) s
  intro p s
  induction bad generalizing s with
  | nil => rfl
  | cons q bad ih => rw [List.foldl_cons, ih]; split <;> rfl
@[simp] theorem State.upsetHistory_banks (d : Dispatch) (bad : List (ChanId × Fin 256)) : (s.upsetHistory d bad).banks = s.banks := by
  suffices h : ∀ (p : State → ChanId × Fin 256 → Bool) (s : State), (bad.foldl (fun s q =>
      if p s q then s.modRing q.1 fun r => r.modify (q.2.val - 1) spoil else s) s).banks = s.banks from
    h (fun s q => s.readsHistory d q.1 q.2.val) s
  intro p s
  induction bad generalizing s with
  | nil => rfl
  | cons q bad ih => rw [List.foldl_cons, ih]; split <;> rfl
@[simp] theorem State.upsetHistory_lanes (d : Dispatch) (bad : List (ChanId × Fin 256)) : (s.upsetHistory d bad).lanes = s.lanes := by
  suffices h : ∀ (p : State → ChanId × Fin 256 → Bool) (s : State), (bad.foldl (fun s q =>
      if p s q then s.modRing q.1 fun r => r.modify (q.2.val - 1) spoil else s) s).lanes = s.lanes from
    h (fun s q => s.readsHistory d q.1 q.2.val) s
  intro p s
  induction bad generalizing s with
  | nil => rfl
  | cons q bad ih => rw [List.foldl_cons, ih]; split <;> rfl
@[simp] theorem State.upsetHistory_watches (d : Dispatch) (bad : List (ChanId × Fin 256)) : (s.upsetHistory d bad).watches = s.watches := by
  suffices h : ∀ (p : State → ChanId × Fin 256 → Bool) (s : State), (bad.foldl (fun s q =>
      if p s q then s.modRing q.1 fun r => r.modify (q.2.val - 1) spoil else s) s).watches = s.watches from
    h (fun s q => s.readsHistory d q.1 q.2.val) s
  intro p s
  induction bad generalizing s with
  | nil => rfl
  | cons q bad ih => rw [List.foldl_cons, ih]; split <;> rfl
@[simp] theorem State.upsetHistory_delivery (d : Dispatch) (bad : List (ChanId × Fin 256)) : (s.upsetHistory d bad).delivery = s.delivery := by
  suffices h : ∀ (p : State → ChanId × Fin 256 → Bool) (s : State), (bad.foldl (fun s q =>
      if p s q then s.modRing q.1 fun r => r.modify (q.2.val - 1) spoil else s) s).delivery = s.delivery from
    h (fun s q => s.readsHistory d q.1 q.2.val) s
  intro p s
  induction bad generalizing s with
  | nil => rfl
  | cons q bad ih => rw [List.foldl_cons, ih]; split <;> rfl
@[simp] theorem State.upsetHistory_resend (d : Dispatch) (bad : List (ChanId × Fin 256)) : (s.upsetHistory d bad).resend = s.resend := by
  suffices h : ∀ (p : State → ChanId × Fin 256 → Bool) (s : State), (bad.foldl (fun s q =>
      if p s q then s.modRing q.1 fun r => r.modify (q.2.val - 1) spoil else s) s).resend = s.resend from
    h (fun s q => s.readsHistory d q.1 q.2.val) s
  intro p s
  induction bad generalizing s with
  | nil => rfl
  | cons q bad ih => rw [List.foldl_cons, ih]; split <;> rfl
@[simp] theorem State.upsetHistory_arbiter (d : Dispatch) (bad : List (ChanId × Fin 256)) : (s.upsetHistory d bad).arbiter = s.arbiter := by
  suffices h : ∀ (p : State → ChanId × Fin 256 → Bool) (s : State), (bad.foldl (fun s q =>
      if p s q then s.modRing q.1 fun r => r.modify (q.2.val - 1) spoil else s) s).arbiter = s.arbiter from
    h (fun s q => s.readsHistory d q.1 q.2.val) s
  intro p s
  induction bad generalizing s with
  | nil => rfl
  | cons q bad ih => rw [List.foldl_cons, ih]; split <;> rfl
@[simp] theorem State.upsetHistory_pending (d : Dispatch) (bad : List (ChanId × Fin 256)) : (s.upsetHistory d bad).pending = s.pending := by
  suffices h : ∀ (p : State → ChanId × Fin 256 → Bool) (s : State), (bad.foldl (fun s q =>
      if p s q then s.modRing q.1 fun r => r.modify (q.2.val - 1) spoil else s) s).pending = s.pending from
    h (fun s q => s.readsHistory d q.1 q.2.val) s
  intro p s
  induction bad generalizing s with
  | nil => rfl
  | cons q bad ih => rw [List.foldl_cons, ih]; split <;> rfl
@[simp] theorem State.upsetHistory_stopRequests (d : Dispatch) (bad : List (ChanId × Fin 256)) : (s.upsetHistory d bad).stopRequests = s.stopRequests := by
  suffices h : ∀ (p : State → ChanId × Fin 256 → Bool) (s : State), (bad.foldl (fun s q =>
      if p s q then s.modRing q.1 fun r => r.modify (q.2.val - 1) spoil else s) s).stopRequests = s.stopRequests from
    h (fun s q => s.readsHistory d q.1 q.2.val) s
  intro p s
  induction bad generalizing s with
  | nil => rfl
  | cons q bad ih => rw [List.foldl_cons, ih]; split <;> rfl
@[simp] theorem State.upsetHistory_chan (d : Dispatch) (bad : List (ChanId × Fin 256)) (j : ChanId) : (s.upsetHistory d bad).chan j = s.chan j := by show (s.upsetHistory d bad).channels[j.val] = _; rw [State.upsetHistory_channels]; rfl
@[simp] theorem State.upsetHistory_bank (d : Dispatch) (bad : List (ChanId × Fin 256)) (j : BankId) : (s.upsetHistory d bad).bank j = s.bank j := by show (s.upsetHistory d bad).banks[j.val] = _; rw [State.upsetHistory_banks]; rfl
@[simp] theorem State.upsetHistory_lane (d : Dispatch) (bad : List (ChanId × Fin 256)) (j : LaneId) : (s.upsetHistory d bad).lane j = s.lane j := by show (s.upsetHistory d bad).lanes[j.val] = _; rw [State.upsetHistory_lanes]; rfl
@[simp] theorem State.upsetHistory_watch (d : Dispatch) (bad : List (ChanId × Fin 256)) (j : WatchId) : (s.upsetHistory d bad).watch j = s.watch j := by show (s.upsetHistory d bad).watches[j.val] = _; rw [State.upsetHistory_watches]; rfl
@[simp] theorem State.upsetHistory_deliv (d : Dispatch) (bad : List (ChanId × Fin 256)) (j : ChanId) : (s.upsetHistory d bad).deliv j = s.deliv j := by show (s.upsetHistory d bad).delivery[j.val] = _; rw [State.upsetHistory_delivery]; rfl

/-! ## damageFound -/

@[simp] theorem State.damageFound_link (d : Dispatch) : (s.damageFound d).link = s.link := by
  suffices h : ∀ (w : SnapEntry → EntryWork) (es : List SnapEntry) (t : State), (es.foldl (fun t e =>
      match w e with
      | .failed (.bank b) => t.damageBank b
      | .failed .history => t
      | .nothing => t
      | .computed _ => t) t).link = t.link from h (s.workEntry d) d.snapshot s
  intro w es t
  induction es generalizing t with
  | nil => rfl
  | cons e es ih => rw [List.foldl_cons, ih]; split <;> rfl
@[simp] theorem State.damageFound_channels (d : Dispatch) : (s.damageFound d).channels = s.channels := by
  suffices h : ∀ (w : SnapEntry → EntryWork) (es : List SnapEntry) (t : State), (es.foldl (fun t e =>
      match w e with
      | .failed (.bank b) => t.damageBank b
      | .failed .history => t
      | .nothing => t
      | .computed _ => t) t).channels = t.channels from h (s.workEntry d) d.snapshot s
  intro w es t
  induction es generalizing t with
  | nil => rfl
  | cons e es ih => rw [List.foldl_cons, ih]; split <;> rfl
@[simp] theorem State.damageFound_coeffMem (d : Dispatch) : (s.damageFound d).coeffMem = s.coeffMem := by
  suffices h : ∀ (w : SnapEntry → EntryWork) (es : List SnapEntry) (t : State), (es.foldl (fun t e =>
      match w e with
      | .failed (.bank b) => t.damageBank b
      | .failed .history => t
      | .nothing => t
      | .computed _ => t) t).coeffMem = t.coeffMem from h (s.workEntry d) d.snapshot s
  intro w es t
  induction es generalizing t with
  | nil => rfl
  | cons e es ih => rw [List.foldl_cons, ih]; split <;> rfl
@[simp] theorem State.damageFound_pool (d : Dispatch) : (s.damageFound d).pool = s.pool := by
  suffices h : ∀ (w : SnapEntry → EntryWork) (es : List SnapEntry) (t : State), (es.foldl (fun t e =>
      match w e with
      | .failed (.bank b) => t.damageBank b
      | .failed .history => t
      | .nothing => t
      | .computed _ => t) t).pool = t.pool from h (s.workEntry d) d.snapshot s
  intro w es t
  induction es generalizing t with
  | nil => rfl
  | cons e es ih => rw [List.foldl_cons, ih]; split <;> rfl
@[simp] theorem State.damageFound_lanes (d : Dispatch) : (s.damageFound d).lanes = s.lanes := by
  suffices h : ∀ (w : SnapEntry → EntryWork) (es : List SnapEntry) (t : State), (es.foldl (fun t e =>
      match w e with
      | .failed (.bank b) => t.damageBank b
      | .failed .history => t
      | .nothing => t
      | .computed _ => t) t).lanes = t.lanes from h (s.workEntry d) d.snapshot s
  intro w es t
  induction es generalizing t with
  | nil => rfl
  | cons e es ih => rw [List.foldl_cons, ih]; split <;> rfl
@[simp] theorem State.damageFound_engine (d : Dispatch) : (s.damageFound d).engine = s.engine := by
  suffices h : ∀ (w : SnapEntry → EntryWork) (es : List SnapEntry) (t : State), (es.foldl (fun t e =>
      match w e with
      | .failed (.bank b) => t.damageBank b
      | .failed .history => t
      | .nothing => t
      | .computed _ => t) t).engine = t.engine from h (s.workEntry d) d.snapshot s
  intro w es t
  induction es generalizing t with
  | nil => rfl
  | cons e es ih => rw [List.foldl_cons, ih]; split <;> rfl
@[simp] theorem State.damageFound_watches (d : Dispatch) : (s.damageFound d).watches = s.watches := by
  suffices h : ∀ (w : SnapEntry → EntryWork) (es : List SnapEntry) (t : State), (es.foldl (fun t e =>
      match w e with
      | .failed (.bank b) => t.damageBank b
      | .failed .history => t
      | .nothing => t
      | .computed _ => t) t).watches = t.watches from h (s.workEntry d) d.snapshot s
  intro w es t
  induction es generalizing t with
  | nil => rfl
  | cons e es ih => rw [List.foldl_cons, ih]; split <;> rfl
@[simp] theorem State.damageFound_delivery (d : Dispatch) : (s.damageFound d).delivery = s.delivery := by
  suffices h : ∀ (w : SnapEntry → EntryWork) (es : List SnapEntry) (t : State), (es.foldl (fun t e =>
      match w e with
      | .failed (.bank b) => t.damageBank b
      | .failed .history => t
      | .nothing => t
      | .computed _ => t) t).delivery = t.delivery from h (s.workEntry d) d.snapshot s
  intro w es t
  induction es generalizing t with
  | nil => rfl
  | cons e es ih => rw [List.foldl_cons, ih]; split <;> rfl
@[simp] theorem State.damageFound_resend (d : Dispatch) : (s.damageFound d).resend = s.resend := by
  suffices h : ∀ (w : SnapEntry → EntryWork) (es : List SnapEntry) (t : State), (es.foldl (fun t e =>
      match w e with
      | .failed (.bank b) => t.damageBank b
      | .failed .history => t
      | .nothing => t
      | .computed _ => t) t).resend = t.resend from h (s.workEntry d) d.snapshot s
  intro w es t
  induction es generalizing t with
  | nil => rfl
  | cons e es ih => rw [List.foldl_cons, ih]; split <;> rfl
@[simp] theorem State.damageFound_arbiter (d : Dispatch) : (s.damageFound d).arbiter = s.arbiter := by
  suffices h : ∀ (w : SnapEntry → EntryWork) (es : List SnapEntry) (t : State), (es.foldl (fun t e =>
      match w e with
      | .failed (.bank b) => t.damageBank b
      | .failed .history => t
      | .nothing => t
      | .computed _ => t) t).arbiter = t.arbiter from h (s.workEntry d) d.snapshot s
  intro w es t
  induction es generalizing t with
  | nil => rfl
  | cons e es ih => rw [List.foldl_cons, ih]; split <;> rfl
@[simp] theorem State.damageFound_pending (d : Dispatch) : (s.damageFound d).pending = s.pending := by
  suffices h : ∀ (w : SnapEntry → EntryWork) (es : List SnapEntry) (t : State), (es.foldl (fun t e =>
      match w e with
      | .failed (.bank b) => t.damageBank b
      | .failed .history => t
      | .nothing => t
      | .computed _ => t) t).pending = t.pending from h (s.workEntry d) d.snapshot s
  intro w es t
  induction es generalizing t with
  | nil => rfl
  | cons e es ih => rw [List.foldl_cons, ih]; split <;> rfl
@[simp] theorem State.damageFound_stopRequests (d : Dispatch) : (s.damageFound d).stopRequests = s.stopRequests := by
  suffices h : ∀ (w : SnapEntry → EntryWork) (es : List SnapEntry) (t : State), (es.foldl (fun t e =>
      match w e with
      | .failed (.bank b) => t.damageBank b
      | .failed .history => t
      | .nothing => t
      | .computed _ => t) t).stopRequests = t.stopRequests from h (s.workEntry d) d.snapshot s
  intro w es t
  induction es generalizing t with
  | nil => rfl
  | cons e es ih => rw [List.foldl_cons, ih]; split <;> rfl
@[simp] theorem State.damageFound_chan (d : Dispatch) (j : ChanId) : (s.damageFound d).chan j = s.chan j := by show (s.damageFound d).channels[j.val] = _; rw [State.damageFound_channels]; rfl
@[simp] theorem State.damageFound_lane (d : Dispatch) (j : LaneId) : (s.damageFound d).lane j = s.lane j := by show (s.damageFound d).lanes[j.val] = _; rw [State.damageFound_lanes]; rfl
@[simp] theorem State.damageFound_watch (d : Dispatch) (j : WatchId) : (s.damageFound d).watch j = s.watch j := by show (s.damageFound d).watches[j.val] = _; rw [State.damageFound_watches]; rfl
@[simp] theorem State.damageFound_deliv (d : Dispatch) (j : ChanId) : (s.damageFound d).deliv j = s.deliv j := by show (s.damageFound d).delivery[j.val] = _; rw [State.damageFound_delivery]; rfl
@[simp] theorem State.damageFound_ring (d : Dispatch) (j : ChanId) : (s.damageFound d).ring j = s.ring j := by show (s.damageFound d).engine.rings[j.val] = _; rw [State.damageFound_engine]; rfl

/-! ## takeSample -/

@[simp] theorem State.takeSample_link (c : ChanId) (x : FifoEntry) : (s.takeSample c x).link = s.link := rfl
@[simp] theorem State.takeSample_coeffMem (c : ChanId) (x : FifoEntry) : (s.takeSample c x).coeffMem = s.coeffMem := rfl
@[simp] theorem State.takeSample_pool (c : ChanId) (x : FifoEntry) : (s.takeSample c x).pool = s.pool := rfl
@[simp] theorem State.takeSample_banks (c : ChanId) (x : FifoEntry) : (s.takeSample c x).banks = s.banks := rfl
@[simp] theorem State.takeSample_lanes (c : ChanId) (x : FifoEntry) : (s.takeSample c x).lanes = s.lanes := rfl
@[simp] theorem State.takeSample_watches (c : ChanId) (x : FifoEntry) : (s.takeSample c x).watches = s.watches := rfl
@[simp] theorem State.takeSample_delivery (c : ChanId) (x : FifoEntry) : (s.takeSample c x).delivery = s.delivery := rfl
@[simp] theorem State.takeSample_resend (c : ChanId) (x : FifoEntry) : (s.takeSample c x).resend = s.resend := rfl
@[simp] theorem State.takeSample_arbiter (c : ChanId) (x : FifoEntry) : (s.takeSample c x).arbiter = s.arbiter := rfl
@[simp] theorem State.takeSample_pending (c : ChanId) (x : FifoEntry) : (s.takeSample c x).pending = s.pending := rfl
@[simp] theorem State.takeSample_stopRequests (c : ChanId) (x : FifoEntry) : (s.takeSample c x).stopRequests = s.stopRequests := rfl
@[simp] theorem State.takeSample_bank (c : ChanId) (x : FifoEntry) (j : BankId) : (s.takeSample c x).bank j = s.bank j := by show (s.takeSample c x).banks[j.val] = _; rw [State.takeSample_banks]; rfl
@[simp] theorem State.takeSample_lane (c : ChanId) (x : FifoEntry) (j : LaneId) : (s.takeSample c x).lane j = s.lane j := by show (s.takeSample c x).lanes[j.val] = _; rw [State.takeSample_lanes]; rfl
@[simp] theorem State.takeSample_watch (c : ChanId) (x : FifoEntry) (j : WatchId) : (s.takeSample c x).watch j = s.watch j := by show (s.takeSample c x).watches[j.val] = _; rw [State.takeSample_watches]; rfl
@[simp] theorem State.takeSample_deliv (c : ChanId) (x : FifoEntry) (j : ChanId) : (s.takeSample c x).deliv j = s.deliv j := by show (s.takeSample c x).delivery[j.val] = _; rw [State.takeSample_delivery]; rfl

/-! ## setFlags -/

@[simp] theorem State.setFlags_link (c : ChanId) (r : Result) (n : Nat) : (s.setFlags c r n).link = s.link := rfl
@[simp] theorem State.setFlags_coeffMem (c : ChanId) (r : Result) (n : Nat) : (s.setFlags c r n).coeffMem = s.coeffMem := rfl
@[simp] theorem State.setFlags_pool (c : ChanId) (r : Result) (n : Nat) : (s.setFlags c r n).pool = s.pool := rfl
@[simp] theorem State.setFlags_banks (c : ChanId) (r : Result) (n : Nat) : (s.setFlags c r n).banks = s.banks := rfl
@[simp] theorem State.setFlags_lanes (c : ChanId) (r : Result) (n : Nat) : (s.setFlags c r n).lanes = s.lanes := rfl
@[simp] theorem State.setFlags_engine (c : ChanId) (r : Result) (n : Nat) : (s.setFlags c r n).engine = s.engine := rfl
@[simp] theorem State.setFlags_watches (c : ChanId) (r : Result) (n : Nat) : (s.setFlags c r n).watches = s.watches := rfl
@[simp] theorem State.setFlags_delivery (c : ChanId) (r : Result) (n : Nat) : (s.setFlags c r n).delivery = s.delivery := rfl
@[simp] theorem State.setFlags_resend (c : ChanId) (r : Result) (n : Nat) : (s.setFlags c r n).resend = s.resend := rfl
@[simp] theorem State.setFlags_arbiter (c : ChanId) (r : Result) (n : Nat) : (s.setFlags c r n).arbiter = s.arbiter := rfl
@[simp] theorem State.setFlags_pending (c : ChanId) (r : Result) (n : Nat) : (s.setFlags c r n).pending = s.pending := rfl
@[simp] theorem State.setFlags_stopRequests (c : ChanId) (r : Result) (n : Nat) : (s.setFlags c r n).stopRequests = s.stopRequests := rfl
@[simp] theorem State.setFlags_bank (c : ChanId) (r : Result) (n : Nat) (j : BankId) : (s.setFlags c r n).bank j = s.bank j := by show (s.setFlags c r n).banks[j.val] = _; rw [State.setFlags_banks]; rfl
@[simp] theorem State.setFlags_lane (c : ChanId) (r : Result) (n : Nat) (j : LaneId) : (s.setFlags c r n).lane j = s.lane j := by show (s.setFlags c r n).lanes[j.val] = _; rw [State.setFlags_lanes]; rfl
@[simp] theorem State.setFlags_watch (c : ChanId) (r : Result) (n : Nat) (j : WatchId) : (s.setFlags c r n).watch j = s.watch j := by show (s.setFlags c r n).watches[j.val] = _; rw [State.setFlags_watches]; rfl
@[simp] theorem State.setFlags_deliv (c : ChanId) (r : Result) (n : Nat) (j : ChanId) : (s.setFlags c r n).deliv j = s.deliv j := by show (s.setFlags c r n).delivery[j.val] = _; rw [State.setFlags_delivery]; rfl
@[simp] theorem State.setFlags_ring (c : ChanId) (r : Result) (n : Nat) (j : ChanId) : (s.setFlags c r n).ring j = s.ring j := by show (s.setFlags c r n).engine.rings[j.val] = _; rw [State.setFlags_engine]; rfl

/-! ## closeIfStopping -/

@[simp] theorem State.closeIfStopping_link (c : ChanId) : (s.closeIfStopping c).1.link = s.link := by unfold State.closeIfStopping; split <;> simp
@[simp] theorem State.closeIfStopping_coeffMem (c : ChanId) : (s.closeIfStopping c).1.coeffMem = s.coeffMem := by unfold State.closeIfStopping; split <;> simp
@[simp] theorem State.closeIfStopping_pool (c : ChanId) : (s.closeIfStopping c).1.pool = s.pool := by unfold State.closeIfStopping; split <;> simp
@[simp] theorem State.closeIfStopping_banks (c : ChanId) : (s.closeIfStopping c).1.banks = s.banks := by unfold State.closeIfStopping; split <;> simp
@[simp] theorem State.closeIfStopping_lanes (c : ChanId) : (s.closeIfStopping c).1.lanes = s.lanes := by unfold State.closeIfStopping; split <;> simp
@[simp] theorem State.closeIfStopping_engine (c : ChanId) : (s.closeIfStopping c).1.engine = s.engine := by unfold State.closeIfStopping; split <;> simp
@[simp] theorem State.closeIfStopping_watches (c : ChanId) : (s.closeIfStopping c).1.watches = s.watches := by unfold State.closeIfStopping; split <;> simp
@[simp] theorem State.closeIfStopping_resend (c : ChanId) : (s.closeIfStopping c).1.resend = s.resend := by unfold State.closeIfStopping; split <;> simp
@[simp] theorem State.closeIfStopping_arbiter (c : ChanId) : (s.closeIfStopping c).1.arbiter = s.arbiter := by unfold State.closeIfStopping; split <;> simp
@[simp] theorem State.closeIfStopping_pending (c : ChanId) : (s.closeIfStopping c).1.pending = s.pending := by unfold State.closeIfStopping; split <;> simp
@[simp] theorem State.closeIfStopping_stopRequests (c : ChanId) : (s.closeIfStopping c).1.stopRequests = s.stopRequests := by unfold State.closeIfStopping; split <;> simp
@[simp] theorem State.closeIfStopping_bank (c : ChanId) (j : BankId) : (s.closeIfStopping c).1.bank j = s.bank j := by show (s.closeIfStopping c).1.banks[j.val] = _; rw [State.closeIfStopping_banks]; rfl
@[simp] theorem State.closeIfStopping_lane (c : ChanId) (j : LaneId) : (s.closeIfStopping c).1.lane j = s.lane j := by show (s.closeIfStopping c).1.lanes[j.val] = _; rw [State.closeIfStopping_lanes]; rfl
@[simp] theorem State.closeIfStopping_watch (c : ChanId) (j : WatchId) : (s.closeIfStopping c).1.watch j = s.watch j := by show (s.closeIfStopping c).1.watches[j.val] = _; rw [State.closeIfStopping_watches]; rfl
@[simp] theorem State.closeIfStopping_ring (c : ChanId) (j : ChanId) : (s.closeIfStopping c).1.ring j = s.ring j := by show (s.closeIfStopping c).1.engine.rings[j.val] = _; rw [State.closeIfStopping_engine]; rfl

/-! ## swapAndStop -/

@[simp] theorem State.swapAndStop_link (c : ChanId) (a b : Bool) : (s.swapAndStop c a b).link = s.link := by
  unfold State.swapAndStop; repeat' split
  all_goals simp
@[simp] theorem State.swapAndStop_coeffMem (c : ChanId) (a b : Bool) : (s.swapAndStop c a b).coeffMem = s.coeffMem := by
  unfold State.swapAndStop; repeat' split
  all_goals simp
@[simp] theorem State.swapAndStop_pool (c : ChanId) (a b : Bool) : (s.swapAndStop c a b).pool = s.pool := by
  unfold State.swapAndStop; repeat' split
  all_goals simp
@[simp] theorem State.swapAndStop_lanes (c : ChanId) (a b : Bool) : (s.swapAndStop c a b).lanes = s.lanes := by
  unfold State.swapAndStop; repeat' split
  all_goals simp
@[simp] theorem State.swapAndStop_engine (c : ChanId) (a b : Bool) : (s.swapAndStop c a b).engine = s.engine := by
  unfold State.swapAndStop; repeat' split
  all_goals simp
@[simp] theorem State.swapAndStop_watches (c : ChanId) (a b : Bool) : (s.swapAndStop c a b).watches = s.watches := by
  unfold State.swapAndStop; repeat' split
  all_goals simp
@[simp] theorem State.swapAndStop_delivery (c : ChanId) (a b : Bool) : (s.swapAndStop c a b).delivery = s.delivery := by
  unfold State.swapAndStop; repeat' split
  all_goals simp
@[simp] theorem State.swapAndStop_resend (c : ChanId) (a b : Bool) : (s.swapAndStop c a b).resend = s.resend := by
  unfold State.swapAndStop; repeat' split
  all_goals simp
@[simp] theorem State.swapAndStop_arbiter (c : ChanId) (a b : Bool) : (s.swapAndStop c a b).arbiter = s.arbiter := by
  unfold State.swapAndStop; repeat' split
  all_goals simp
@[simp] theorem State.swapAndStop_pending (c : ChanId) (a b : Bool) : (s.swapAndStop c a b).pending = s.pending := by
  unfold State.swapAndStop; repeat' split
  all_goals simp
theorem State.swapPoint_state (c : ChanId) : ((s.swapPoint c).chan c).state = (s.chan c).state := by
  unfold State.swapPoint; split <;> simp
theorem State.stopRequest_state (c : ChanId) :
    ((s.stopRequest c).chan c).state = if (s.chan c).state = .running then .stopping else (s.chan c).state := by
  unfold State.stopRequest; split <;> simp [*]
theorem State.swapAndStop_state (c : ChanId) (a b : Bool) :
    ((s.swapAndStop c a b).chan c).state =
      if (a = true ∨ b = true) ∧ (s.chan c).state = .running then .stopping else (s.chan c).state := by
  by_cases h : (s.chan c).state = .running <;> cases a <;> cases b <;>
    simp [State.swapAndStop, State.swapPoint_state, State.stopRequest_state, h]
theorem State.swapAndStop_stopRequests (c : ChanId) (a b : Bool) :
    (s.swapAndStop c a b).stopRequests =
      if (a = true ∨ b = true) ∧ (s.chan c).state = .running then s.stopRequests.filter (· != c)
      else s.stopRequests := by
  by_cases h : (s.chan c).state = .running <;> cases a <;> cases b <;>
    simp [State.swapAndStop, State.swapPoint_state, State.stopRequest_state, h]
@[simp] theorem State.swapAndStop_lane (c : ChanId) (a b : Bool) (j : LaneId) : (s.swapAndStop c a b).lane j = s.lane j := by show (s.swapAndStop c a b).lanes[j.val] = _; rw [State.swapAndStop_lanes]; rfl
@[simp] theorem State.swapAndStop_watch (c : ChanId) (a b : Bool) (j : WatchId) : (s.swapAndStop c a b).watch j = s.watch j := by show (s.swapAndStop c a b).watches[j.val] = _; rw [State.swapAndStop_watches]; rfl
@[simp] theorem State.swapAndStop_deliv (c : ChanId) (a b : Bool) (j : ChanId) : (s.swapAndStop c a b).deliv j = s.deliv j := by show (s.swapAndStop c a b).delivery[j.val] = _; rw [State.swapAndStop_delivery]; rfl
@[simp] theorem State.swapAndStop_ring (c : ChanId) (a b : Bool) (j : ChanId) : (s.swapAndStop c a b).ring j = s.ring j := by show (s.swapAndStop c a b).engine.rings[j.val] = _; rw [State.swapAndStop_engine]; rfl

/-! ## Other channels

An operation on channel `c` leaves the records of every other channel. -/

theorem State.releaseStaged_chan_ne (c : ChanId) (j : ChanId) (h : j ≠ c) :
    (s.releaseStaged c).chan j = s.chan j := by
  simp [State.releaseStaged, State.modChan_chan_ne, h]

theorem State.loseOutput_chan_ne (c : ChanId) (j : ChanId) (h : j ≠ c) :
    (s.loseOutput c).1.chan j = s.chan j := by
  simp [State.loseOutput, State.modChan_chan_ne, h]
theorem State.loseOutput_deliv_ne (c : ChanId) (j : ChanId) (h : j ≠ c) :
    (s.loseOutput c).1.deliv j = s.deliv j := by
  simp [State.loseOutput, State.modDeliv_deliv_ne, h]

theorem State.append_chan_ne (c : ChanId) (i : OutIndex) (v : Output) (j : ChanId) (h : j ≠ c) :
    (s.append c i v).1.chan j = s.chan j := by
  unfold State.append; dsimp only; split <;> simp [State.modChan_chan_ne, State.loseOutput_chan_ne, h]
theorem State.append_deliv_ne (c : ChanId) (i : OutIndex) (v : Output) (j : ChanId) (h : j ≠ c) :
    (s.append c i v).1.deliv j = s.deliv j := by
  unfold State.append; dsimp only; split <;> simp [State.modDeliv_deliv_ne, State.loseOutput_deliv_ne, h]

theorem State.drainReport_chan_ne (c : ChanId) (j : ChanId) (h : j ≠ c) :
    (s.drainReport c).1.chan j = s.chan j := by
  unfold State.drainReport; split <;> simp [State.modChan_chan_ne, h]

theorem State.checkDrain_chan_ne (c : ChanId) (j : ChanId) (h : j ≠ c) :
    (s.checkDrain c).1.chan j = s.chan j := by
  unfold State.checkDrain; split <;> simp [State.drainReport_chan_ne, h]
theorem State.checkDrain_deliv_ne (c : ChanId) (j : ChanId) (h : j ≠ c) :
    (s.checkDrain c).1.deliv j = s.deliv j := by
  unfold State.checkDrain; split <;> simp [State.modDeliv_deliv_ne, h]

theorem State.closeFilling_deliv_ne (c : ChanId) (j : ChanId) (h : j ≠ c) :
    (s.closeFilling c).1.deliv j = s.deliv j := by
  unfold State.closeFilling; dsimp only; split <;> [skip; split] <;> simp [State.modDeliv_deliv_ne, h]

theorem State.closeBatch_chan_ne (c : ChanId) (j : ChanId) (h : j ≠ c) :
    (s.closeBatch c).1.chan j = s.chan j := by
  unfold State.closeBatch; split <;> simp [Raising.andThen, State.checkDrain_chan_ne, h]
theorem State.closeBatch_deliv_ne (c : ChanId) (j : ChanId) (h : j ≠ c) :
    (s.closeBatch c).1.deliv j = s.deliv j := by
  unfold State.closeBatch; split <;> simp [Raising.andThen, State.checkDrain_deliv_ne, State.closeFilling_deliv_ne, State.modDeliv_deliv_ne, h]

theorem State.discard_deliv_ne (c : ChanId) (j : ChanId) (h : j ≠ c) :
    (s.discard c).deliv j = s.deliv j := by
  exact State.modDeliv_deliv_ne s c j (fun d =>
    { d with slots := Vector.replicate 4 .free, pendingLost := 0, readyOrder := [], inflightOrder := [],
             drainWatch := false }) h

theorem State.acknowledge_chan_ne (c : ChanId) (q : Byte) (j : ChanId) (h : j ≠ c) :
    (s.acknowledge c q).1.chan j = s.chan j := by
  unfold State.acknowledge
  split
  · rfl
  · dsimp only
    rw [State.checkDrain_chan_ne _ _ _ h]; rfl
theorem State.acknowledge_deliv_ne (c : ChanId) (q : Byte) (j : ChanId) (h : j ≠ c) :
    (s.acknowledge c q).1.deliv j = s.deliv j := by
  unfold State.acknowledge
  split
  · rfl
  · dsimp only
    rw [State.checkDrain_deliv_ne _ _ _ h]; exact State.modDeliv_deliv_ne s c j (fun d => { d.freeSlots ((s.deliv c).inflightOrder.take (_ + 1)) with inflightOrder := d.inflightOrder.drop (_ + 1) }) h

theorem State.dropBatch_chan_ne (c : ChanId) (b : BatchId) (j : ChanId) (h : j ≠ c) :
    (s.dropBatch c b).1.chan j = s.chan j := by
  simp [State.dropBatch, Raising.andThen, State.checkDrain_chan_ne, State.modChan_chan_ne, h]
theorem State.dropBatch_deliv_ne (c : ChanId) (b : BatchId) (j : ChanId) (h : j ≠ c) :
    (s.dropBatch c b).1.deliv j = s.deliv j := by
  simp [State.dropBatch, Raising.andThen, State.checkDrain_deliv_ne, State.modDeliv_deliv_ne, h]

theorem State.startTimer_deliv_ne (c : ChanId) (b : BatchId) (j : ChanId) (h : j ≠ c) :
    (s.startTimer c b).deliv j = s.deliv j := by
  simp [State.startTimer, State.modDeliv_deliv_ne, h]

theorem State.batchSent_chan_ne (c : ChanId) (b : BatchId) (j : ChanId) (h : j ≠ c) :
    (s.batchSent c b).1.chan j = s.chan j := by
  unfold State.batchSent; dsimp only; repeat' split
  all_goals simp [State.checkDrain_chan_ne, h]
theorem State.batchSent_deliv_ne (c : ChanId) (b : BatchId) (j : ChanId) (h : j ≠ c) :
    (s.batchSent c b).1.deliv j = s.deliv j := by
  unfold State.batchSent; dsimp only; repeat' split
  all_goals simp [State.checkDrain_deliv_ne, State.startTimer_deliv_ne, State.modDeliv_deliv_ne, h]

theorem State.batchAbandoned_deliv_ne (c : ChanId) (b : BatchId) (j : ChanId) (h : j ≠ c) :
    (s.batchAbandoned c b).deliv j = s.deliv j := by
  unfold State.batchAbandoned; dsimp only; repeat' split
  all_goals simp [State.startTimer_deliv_ne, State.modDeliv_deliv_ne, h]

theorem State.swapPoint_chan_ne (c : ChanId) (j : ChanId) (h : j ≠ c) :
    (s.swapPoint c).chan j = s.chan j := by
  unfold State.swapPoint; split <;> simp [State.modChan_chan_ne, h]

theorem State.stopRequest_chan_ne (c : ChanId) (j : ChanId) (h : j ≠ c) :
    (s.stopRequest c).chan j = s.chan j := by
  unfold State.stopRequest; split <;> simp [State.modChan_chan_ne, State.releaseStaged_chan_ne, h]

theorem State.endRun_chan_ne (c : ChanId) (st : ChanState) (ds : DoneStatus) (j : ChanId) (h : j ≠ c) :
    (s.endRun c st ds).chan j = s.chan j := by
  simp [State.endRun, State.modChan_chan_ne, State.releaseStaged_chan_ne, h]
theorem State.endRun_deliv_ne (c : ChanId) (st : ChanState) (ds : DoneStatus) (j : ChanId) (h : j ≠ c) :
    (s.endRun c st ds).deliv j = s.deliv j := by
  simp [State.endRun, State.discard_deliv_ne, h]

theorem State.faultClaim_chan_ne (c : ChanId) (k : FaultCause) (j : ChanId) (h : j ≠ c) :
    (s.faultClaim c k).1.chan j = s.chan j := by
  unfold State.faultClaim; split <;> simp [State.endRun_chan_ne, h]
theorem State.faultClaim_deliv_ne (c : ChanId) (k : FaultCause) (j : ChanId) (h : j ≠ c) :
    (s.faultClaim c k).1.deliv j = s.deliv j := by
  unfold State.faultClaim; split <;> simp [State.endRun_deliv_ne, h]

theorem State.configure_chan_ne (c : ChanId) (g : ChanConfig) (j : ChanId) (h : j ≠ c) :
    (s.configure c g).chan j = s.chan j := by
  simp [State.configure, State.modChan_chan_ne, h]

theorem State.bind_chan_ne (c : ChanId) (b : BankId) (j : ChanId) (h : j ≠ c) :
    (s.bind c b).chan j = s.chan j := by
  simp [State.bind, State.modChan_chan_ne, h]

theorem State.closeAtStop_chan_ne (c : ChanId) (j : ChanId) (h : j ≠ c) :
    (s.closeAtStop c).1.chan j = s.chan j := by
  unfold State.closeAtStop; split <;> simp [State.closeBatch_chan_ne, h]
theorem State.closeAtStop_deliv_ne (c : ChanId) (j : ChanId) (h : j ≠ c) :
    (s.closeAtStop c).1.deliv j = s.deliv j := by
  unfold State.closeAtStop; split <;> simp [State.closeBatch_deliv_ne, h]
theorem State.stopChannel_chan_ne (c : ChanId) (tag : Byte) (j : ChanId) (h : j ≠ c) :
    (s.stopChannel c tag).1.chan j = s.chan j := by
  simp [State.stopChannel, State.closeAtStop_chan_ne, State.modChan_chan_ne, h]
theorem State.stopChannel_deliv_ne (c : ChanId) (tag : Byte) (j : ChanId) (h : j ≠ c) :
    (s.stopChannel c tag).1.deliv j = s.deliv j := by
  simp [State.stopChannel, State.closeAtStop_deliv_ne, h]

theorem State.clearChannel_chan_ne (c : ChanId) (j : ChanId) (h : j ≠ c) :
    (s.clearChannel c).chan j = s.chan j := by
  simp [State.clearChannel, State.configure_chan_ne, State.modChan_chan_ne, h]

theorem State.swapNow_chan_ne (c : ChanId) (b : BankId) (tag : Byte) (j : ChanId) (h : j ≠ c) :
    (s.swapNow c b tag).chan j = s.chan j := by
  simp [State.swapNow, State.modChan_chan_ne, h]

theorem State.stageSwap_chan_ne (c : ChanId) (b : BankId) (tag : Byte) (j : ChanId) (h : j ≠ c) :
    (s.stageSwap c b tag).chan j = s.chan j := by
  simp [State.stageSwap, State.modChan_chan_ne, h]

theorem State.takeSample_chan_ne (c : ChanId) (x : FifoEntry) (j : ChanId) (h : j ≠ c) :
    (s.takeSample c x).chan j = s.chan j := by
  simp [State.takeSample, State.modChan_chan_ne, h]
theorem State.takeSample_ring_ne (c : ChanId) (x : FifoEntry) (j : ChanId) (h : j ≠ c) :
    (s.takeSample c x).ring j = s.ring j := by
  simp [State.takeSample, State.modRing_ring_ne, h]

theorem State.setFlags_chan_ne (c : ChanId) (r : Result) (n : Nat) (j : ChanId) (h : j ≠ c) :
    (s.setFlags c r n).chan j = s.chan j := by
  simp [State.setFlags, State.modChan_chan_ne, h]

theorem State.closeIfStopping_chan_ne (c : ChanId) (j : ChanId) (h : j ≠ c) :
    (s.closeIfStopping c).1.chan j = s.chan j := by
  unfold State.closeIfStopping; split <;> simp [State.closeBatch_chan_ne, h]
theorem State.closeIfStopping_deliv_ne (c : ChanId) (j : ChanId) (h : j ≠ c) :
    (s.closeIfStopping c).1.deliv j = s.deliv j := by
  unfold State.closeIfStopping; split <;> simp [State.closeBatch_deliv_ne, h]
theorem State.swapAndStop_chan_ne (c : ChanId) (a b : Bool) (j : ChanId) (h : j ≠ c) :
    (s.swapAndStop c a b).chan j = s.chan j := by
  unfold State.swapAndStop; repeat' split
  all_goals simp [State.swapPoint_chan_ne, State.stopRequest_chan_ne, h]

end Sys2Proof.Machine
end

