-- ==== Sys2Proof/Laws/LargeFrames.lean ====
section
/-! SUPPORT. Which blocks the larger operations leave alone: the evaluation of an output, the settling of a
dispatch, the starts and ends of transmissions, the resets. -/

namespace Sys2Proof.Machine

variable (s : State)

/-! ## Evaluation -/

/-- One watch's evaluation changes the watches alone. -/
theorem Evaluation.step_frame (c : ChanId) (i : OutIndex) (v : Output) (e : Evaluation) (w : WatchId) :
    (e.step c i v w).state = { e.state with watches := (e.step c i v w).state.watches } := by
  unfold Evaluation.step
  dsimp only
  split
  · split <;> rfl
  · rfl

theorem Evaluation.fold_frame (c : ChanId) (i : OutIndex) (v : Output) (ws : List WatchId) (e : Evaluation) :
    (ws.foldl (Evaluation.step c i v) e).state =
      { e.state with watches := (ws.foldl (Evaluation.step c i v) e).state.watches } := by
  induction ws generalizing e with
  | nil => rfl
  | cons w ws ih => rw [List.foldl_cons, ih, Evaluation.step_frame c i v e w]

/-- The evaluation of an output changes the watches alone. -/
theorem State.evaluate_frame (c : ChanId) (i : OutIndex) (v : Output) :
    (s.evaluate c i v).state = { s with watches := (s.evaluate c i v).state.watches } := by
  unfold State.evaluate
  exact Evaluation.fold_frame c i v (List.finRange 8) ⟨s, [], []⟩

/-! ## evaluate -/

@[simp] theorem State.evaluate_link (c : ChanId) (i : OutIndex) (v : Output) : (s.evaluate c i v).state.link = s.link := by rw [State.evaluate_frame]
@[simp] theorem State.evaluate_channels (c : ChanId) (i : OutIndex) (v : Output) : (s.evaluate c i v).state.channels = s.channels := by rw [State.evaluate_frame]
@[simp] theorem State.evaluate_coeffMem (c : ChanId) (i : OutIndex) (v : Output) : (s.evaluate c i v).state.coeffMem = s.coeffMem := by rw [State.evaluate_frame]
@[simp] theorem State.evaluate_pool (c : ChanId) (i : OutIndex) (v : Output) : (s.evaluate c i v).state.pool = s.pool := by rw [State.evaluate_frame]
@[simp] theorem State.evaluate_banks (c : ChanId) (i : OutIndex) (v : Output) : (s.evaluate c i v).state.banks = s.banks := by rw [State.evaluate_frame]
@[simp] theorem State.evaluate_lanes (c : ChanId) (i : OutIndex) (v : Output) : (s.evaluate c i v).state.lanes = s.lanes := by rw [State.evaluate_frame]
@[simp] theorem State.evaluate_engine (c : ChanId) (i : OutIndex) (v : Output) : (s.evaluate c i v).state.engine = s.engine := by rw [State.evaluate_frame]
@[simp] theorem State.evaluate_delivery (c : ChanId) (i : OutIndex) (v : Output) : (s.evaluate c i v).state.delivery = s.delivery := by rw [State.evaluate_frame]
@[simp] theorem State.evaluate_resend (c : ChanId) (i : OutIndex) (v : Output) : (s.evaluate c i v).state.resend = s.resend := by rw [State.evaluate_frame]
@[simp] theorem State.evaluate_arbiter (c : ChanId) (i : OutIndex) (v : Output) : (s.evaluate c i v).state.arbiter = s.arbiter := by rw [State.evaluate_frame]
@[simp] theorem State.evaluate_pending (c : ChanId) (i : OutIndex) (v : Output) : (s.evaluate c i v).state.pending = s.pending := by rw [State.evaluate_frame]
@[simp] theorem State.evaluate_stopRequests (c : ChanId) (i : OutIndex) (v : Output) : (s.evaluate c i v).state.stopRequests = s.stopRequests := by rw [State.evaluate_frame]
@[simp] theorem State.evaluate_chan (c : ChanId) (i : OutIndex) (v : Output) (j : ChanId) : (s.evaluate c i v).state.chan j = s.chan j := by
  show (s.evaluate c i v).state.channels[j.val] = _; rw [State.evaluate_channels]; rfl
@[simp] theorem State.evaluate_bank (c : ChanId) (i : OutIndex) (v : Output) (j : BankId) : (s.evaluate c i v).state.bank j = s.bank j := by
  show (s.evaluate c i v).state.banks[j.val] = _; rw [State.evaluate_banks]; rfl
@[simp] theorem State.evaluate_lane (c : ChanId) (i : OutIndex) (v : Output) (j : LaneId) : (s.evaluate c i v).state.lane j = s.lane j := by
  show (s.evaluate c i v).state.lanes[j.val] = _; rw [State.evaluate_lanes]; rfl
@[simp] theorem State.evaluate_deliv (c : ChanId) (i : OutIndex) (v : Output) (j : ChanId) : (s.evaluate c i v).state.deliv j = s.deliv j := by
  show (s.evaluate c i v).state.delivery[j.val] = _; rw [State.evaluate_delivery]; rfl
@[simp] theorem State.evaluate_ring (c : ChanId) (i : OutIndex) (v : Output) (j : ChanId) : (s.evaluate c i v).state.ring j = s.ring j := by
  show (s.evaluate c i v).state.engine.rings[j.val] = _; rw [State.evaluate_engine]; rfl

/-! ## leaveRequests -/

@[simp] theorem State.leaveRequests_link (c : ChanId) (ws : List WatchId) : (s.leaveRequests c ws).link = s.link := rfl
@[simp] theorem State.leaveRequests_channels (c : ChanId) (ws : List WatchId) : (s.leaveRequests c ws).channels = s.channels := rfl
@[simp] theorem State.leaveRequests_coeffMem (c : ChanId) (ws : List WatchId) : (s.leaveRequests c ws).coeffMem = s.coeffMem := rfl
@[simp] theorem State.leaveRequests_pool (c : ChanId) (ws : List WatchId) : (s.leaveRequests c ws).pool = s.pool := rfl
@[simp] theorem State.leaveRequests_banks (c : ChanId) (ws : List WatchId) : (s.leaveRequests c ws).banks = s.banks := rfl
@[simp] theorem State.leaveRequests_lanes (c : ChanId) (ws : List WatchId) : (s.leaveRequests c ws).lanes = s.lanes := rfl
@[simp] theorem State.leaveRequests_engine (c : ChanId) (ws : List WatchId) : (s.leaveRequests c ws).engine = s.engine := rfl
@[simp] theorem State.leaveRequests_watches (c : ChanId) (ws : List WatchId) : (s.leaveRequests c ws).watches = s.watches := rfl
@[simp] theorem State.leaveRequests_delivery (c : ChanId) (ws : List WatchId) : (s.leaveRequests c ws).delivery = s.delivery := rfl
@[simp] theorem State.leaveRequests_resend (c : ChanId) (ws : List WatchId) : (s.leaveRequests c ws).resend = s.resend := rfl
@[simp] theorem State.leaveRequests_arbiter (c : ChanId) (ws : List WatchId) : (s.leaveRequests c ws).arbiter = s.arbiter := rfl
@[simp] theorem State.leaveRequests_pending (c : ChanId) (ws : List WatchId) : (s.leaveRequests c ws).pending = s.pending := rfl
@[simp] theorem State.leaveRequests_chan (c : ChanId) (ws : List WatchId) (j : ChanId) : (s.leaveRequests c ws).chan j = s.chan j := rfl
@[simp] theorem State.leaveRequests_bank (c : ChanId) (ws : List WatchId) (j : BankId) : (s.leaveRequests c ws).bank j = s.bank j := rfl
@[simp] theorem State.leaveRequests_lane (c : ChanId) (ws : List WatchId) (j : LaneId) : (s.leaveRequests c ws).lane j = s.lane j := rfl
@[simp] theorem State.leaveRequests_watch (c : ChanId) (ws : List WatchId) (j : WatchId) : (s.leaveRequests c ws).watch j = s.watch j := rfl
@[simp] theorem State.leaveRequests_deliv (c : ChanId) (ws : List WatchId) (j : ChanId) : (s.leaveRequests c ws).deliv j = s.deliv j := rfl
@[simp] theorem State.leaveRequests_ring (c : ChanId) (ws : List WatchId) (j : ChanId) : (s.leaveRequests c ws).ring j = s.ring j := rfl
theorem State.leaveRequests_stopRequests (c : ChanId) (ws : List WatchId) :
    (s.leaveRequests c ws).stopRequests =
      if ws ≠ [] ∧ (s.chan c).state = .running ∧ c ∉ s.stopRequests then s.stopRequests ++ [c]
      else s.stopRequests := rfl

/-! ## handOn -/

@[simp] theorem State.handOn_link (c : ChanId) (r : Result) (n : Nat) (ch : CompletionChoice) : (s.handOn c r n ch).1.link = s.link := by simp [State.handOn]
@[simp] theorem State.handOn_coeffMem (c : ChanId) (r : Result) (n : Nat) (ch : CompletionChoice) : (s.handOn c r n ch).1.coeffMem = s.coeffMem := by simp [State.handOn]
@[simp] theorem State.handOn_pool (c : ChanId) (r : Result) (n : Nat) (ch : CompletionChoice) : (s.handOn c r n ch).1.pool = s.pool := by simp [State.handOn]
@[simp] theorem State.handOn_lanes (c : ChanId) (r : Result) (n : Nat) (ch : CompletionChoice) : (s.handOn c r n ch).1.lanes = s.lanes := by simp [State.handOn]
@[simp] theorem State.handOn_engine (c : ChanId) (r : Result) (n : Nat) (ch : CompletionChoice) : (s.handOn c r n ch).1.engine = s.engine := by simp [State.handOn]
@[simp] theorem State.handOn_resend (c : ChanId) (r : Result) (n : Nat) (ch : CompletionChoice) : (s.handOn c r n ch).1.resend = s.resend := by simp [State.handOn]
@[simp] theorem State.handOn_arbiter (c : ChanId) (r : Result) (n : Nat) (ch : CompletionChoice) : (s.handOn c r n ch).1.arbiter = s.arbiter := by simp [State.handOn]
@[simp] theorem State.handOn_pending (c : ChanId) (r : Result) (n : Nat) (ch : CompletionChoice) : (s.handOn c r n ch).1.pending = s.pending := by simp [State.handOn]
@[simp] theorem State.handOn_lane (c : ChanId) (r : Result) (n : Nat) (ch : CompletionChoice) (j : LaneId) : (s.handOn c r n ch).1.lane j = s.lane j := by
  show (s.handOn c r n ch).1.lanes[j.val] = _; rw [State.handOn_lanes]; rfl
@[simp] theorem State.handOn_ring (c : ChanId) (r : Result) (n : Nat) (ch : CompletionChoice) (j : ChanId) : (s.handOn c r n ch).1.ring j = s.ring j := by
  show (s.handOn c r n ch).1.engine.rings[j.val] = _; rw [State.handOn_engine]; rfl

/-! ## settlePassing -/

@[simp] theorem State.settlePassing_link (ch : CompletionChoice) (d : Dispatch) (e : SnapEntry) : (s.settlePassing ch d e).1.link = s.link := by
  unfold State.settlePassing; dsimp only [Raising.andThen]; repeat' split
  all_goals simp
@[simp] theorem State.settlePassing_coeffMem (ch : CompletionChoice) (d : Dispatch) (e : SnapEntry) : (s.settlePassing ch d e).1.coeffMem = s.coeffMem := by
  unfold State.settlePassing; dsimp only [Raising.andThen]; repeat' split
  all_goals simp
@[simp] theorem State.settlePassing_pool (ch : CompletionChoice) (d : Dispatch) (e : SnapEntry) : (s.settlePassing ch d e).1.pool = s.pool := by
  unfold State.settlePassing; dsimp only [Raising.andThen]; repeat' split
  all_goals simp
@[simp] theorem State.settlePassing_lanes (ch : CompletionChoice) (d : Dispatch) (e : SnapEntry) : (s.settlePassing ch d e).1.lanes = s.lanes := by
  unfold State.settlePassing; dsimp only [Raising.andThen]; repeat' split
  all_goals simp
@[simp] theorem State.settlePassing_resend (ch : CompletionChoice) (d : Dispatch) (e : SnapEntry) : (s.settlePassing ch d e).1.resend = s.resend := by
  unfold State.settlePassing; dsimp only [Raising.andThen]; repeat' split
  all_goals simp
@[simp] theorem State.settlePassing_arbiter (ch : CompletionChoice) (d : Dispatch) (e : SnapEntry) : (s.settlePassing ch d e).1.arbiter = s.arbiter := by
  unfold State.settlePassing; dsimp only [Raising.andThen]; repeat' split
  all_goals simp
@[simp] theorem State.settlePassing_pending (ch : CompletionChoice) (d : Dispatch) (e : SnapEntry) : (s.settlePassing ch d e).1.pending = s.pending := by
  unfold State.settlePassing; dsimp only [Raising.andThen]; repeat' split
  all_goals simp
@[simp] theorem State.settlePassing_lane (ch : CompletionChoice) (d : Dispatch) (e : SnapEntry) (j : LaneId) : (s.settlePassing ch d e).1.lane j = s.lane j := by
  show (s.settlePassing ch d e).1.lanes[j.val] = _; rw [State.settlePassing_lanes]; rfl

/-! ## settleEntry -/

@[simp] theorem State.settleEntry_link (ch : CompletionChoice) (d : Dispatch) (e : SnapEntry) : (s.settleEntry ch d e).1.link = s.link := by
  unfold State.settleEntry; split <;> simp
@[simp] theorem State.settleEntry_coeffMem (ch : CompletionChoice) (d : Dispatch) (e : SnapEntry) : (s.settleEntry ch d e).1.coeffMem = s.coeffMem := by
  unfold State.settleEntry; split <;> simp
@[simp] theorem State.settleEntry_pool (ch : CompletionChoice) (d : Dispatch) (e : SnapEntry) : (s.settleEntry ch d e).1.pool = s.pool := by
  unfold State.settleEntry; split <;> simp
@[simp] theorem State.settleEntry_lanes (ch : CompletionChoice) (d : Dispatch) (e : SnapEntry) : (s.settleEntry ch d e).1.lanes = s.lanes := by
  unfold State.settleEntry; split <;> simp
@[simp] theorem State.settleEntry_arbiter (ch : CompletionChoice) (d : Dispatch) (e : SnapEntry) : (s.settleEntry ch d e).1.arbiter = s.arbiter := by
  unfold State.settleEntry; split <;> simp
@[simp] theorem State.settleEntry_pending (ch : CompletionChoice) (d : Dispatch) (e : SnapEntry) : (s.settleEntry ch d e).1.pending = s.pending := by
  unfold State.settleEntry; split <;> simp
@[simp] theorem State.settleEntry_lane (ch : CompletionChoice) (d : Dispatch) (e : SnapEntry) (j : LaneId) : (s.settleEntry ch d e).1.lane j = s.lane j := by
  show (s.settleEntry ch d e).1.lanes[j.val] = _; rw [State.settleEntry_lanes]; rfl

/-! ## completeEntry -/

@[simp] theorem State.completeEntry_link (ch : CompletionChoice) (d : Dispatch) (e : SnapEntry) : (s.completeEntry ch d e).1.link = s.link := by
  unfold State.completeEntry; split <;> simp
@[simp] theorem State.completeEntry_coeffMem (ch : CompletionChoice) (d : Dispatch) (e : SnapEntry) : (s.completeEntry ch d e).1.coeffMem = s.coeffMem := by
  unfold State.completeEntry; split <;> simp
@[simp] theorem State.completeEntry_pool (ch : CompletionChoice) (d : Dispatch) (e : SnapEntry) : (s.completeEntry ch d e).1.pool = s.pool := by
  unfold State.completeEntry; split <;> simp
@[simp] theorem State.completeEntry_lanes (ch : CompletionChoice) (d : Dispatch) (e : SnapEntry) : (s.completeEntry ch d e).1.lanes = s.lanes := by
  unfold State.completeEntry; split <;> simp
@[simp] theorem State.completeEntry_arbiter (ch : CompletionChoice) (d : Dispatch) (e : SnapEntry) : (s.completeEntry ch d e).1.arbiter = s.arbiter := by
  unfold State.completeEntry; split <;> simp
@[simp] theorem State.completeEntry_pending (ch : CompletionChoice) (d : Dispatch) (e : SnapEntry) : (s.completeEntry ch d e).1.pending = s.pending := by
  unfold State.completeEntry; split <;> simp
@[simp] theorem State.completeEntry_lane (ch : CompletionChoice) (d : Dispatch) (e : SnapEntry) (j : LaneId) : (s.completeEntry ch d e).1.lane j = s.lane j := by
  show (s.completeEntry ch d e).1.lanes[j.val] = _; rw [State.completeEntry_lanes]; rfl

/-! ## settleAll -/

@[simp] theorem State.settleAll_link (ch : CompletionChoice) (d : Dispatch) (es : List SnapEntry) :
    (State.settleAll ch d es s).1.link = s.link := by
  induction es generalizing s with
  | nil => rfl
  | cons e es ih => simp [State.settleAll, ih]
@[simp] theorem State.settleAll_coeffMem (ch : CompletionChoice) (d : Dispatch) (es : List SnapEntry) :
    (State.settleAll ch d es s).1.coeffMem = s.coeffMem := by
  induction es generalizing s with
  | nil => rfl
  | cons e es ih => simp [State.settleAll, ih]
@[simp] theorem State.settleAll_pool (ch : CompletionChoice) (d : Dispatch) (es : List SnapEntry) :
    (State.settleAll ch d es s).1.pool = s.pool := by
  induction es generalizing s with
  | nil => rfl
  | cons e es ih => simp [State.settleAll, ih]
@[simp] theorem State.settleAll_lanes (ch : CompletionChoice) (d : Dispatch) (es : List SnapEntry) :
    (State.settleAll ch d es s).1.lanes = s.lanes := by
  induction es generalizing s with
  | nil => rfl
  | cons e es ih => simp [State.settleAll, ih]
@[simp] theorem State.settleAll_arbiter (ch : CompletionChoice) (d : Dispatch) (es : List SnapEntry) :
    (State.settleAll ch d es s).1.arbiter = s.arbiter := by
  induction es generalizing s with
  | nil => rfl
  | cons e es ih => simp [State.settleAll, ih]
@[simp] theorem State.settleAll_pending (ch : CompletionChoice) (d : Dispatch) (es : List SnapEntry) :
    (State.settleAll ch d es s).1.pending = s.pending := by
  induction es generalizing s with
  | nil => rfl
  | cons e es ih => simp [State.settleAll, ih]

/-! ## complete -/

@[simp] theorem State.complete_link (d : Dispatch) (ch : CompletionChoice) :
    (s.complete d ch).link = s.link := by simp [State.complete]
@[simp] theorem State.complete_coeffMem (d : Dispatch) (ch : CompletionChoice) :
    (s.complete d ch).coeffMem = s.coeffMem := by simp [State.complete]
@[simp] theorem State.complete_pool (d : Dispatch) (ch : CompletionChoice) :
    (s.complete d ch).pool = s.pool := by simp [State.complete]
@[simp] theorem State.complete_lanes (d : Dispatch) (ch : CompletionChoice) :
    (s.complete d ch).lanes = s.lanes := by simp [State.complete]
@[simp] theorem State.complete_pending (d : Dispatch) (ch : CompletionChoice) :
    (s.complete d ch).pending = s.pending := by simp [State.complete]

/-! ## transmit -/

@[simp] theorem State.transmit_link (src : Source) (f : Frame) : (s.transmit src f).link = s.link := rfl
@[simp] theorem State.transmit_channels (src : Source) (f : Frame) : (s.transmit src f).channels = s.channels := rfl
@[simp] theorem State.transmit_coeffMem (src : Source) (f : Frame) : (s.transmit src f).coeffMem = s.coeffMem := rfl
@[simp] theorem State.transmit_pool (src : Source) (f : Frame) : (s.transmit src f).pool = s.pool := rfl
@[simp] theorem State.transmit_banks (src : Source) (f : Frame) : (s.transmit src f).banks = s.banks := rfl
@[simp] theorem State.transmit_lanes (src : Source) (f : Frame) : (s.transmit src f).lanes = s.lanes := rfl
@[simp] theorem State.transmit_engine (src : Source) (f : Frame) : (s.transmit src f).engine = s.engine := rfl
@[simp] theorem State.transmit_watches (src : Source) (f : Frame) : (s.transmit src f).watches = s.watches := rfl
@[simp] theorem State.transmit_delivery (src : Source) (f : Frame) : (s.transmit src f).delivery = s.delivery := rfl
@[simp] theorem State.transmit_resend (src : Source) (f : Frame) : (s.transmit src f).resend = s.resend := rfl
@[simp] theorem State.transmit_pending (src : Source) (f : Frame) : (s.transmit src f).pending = s.pending := rfl
@[simp] theorem State.transmit_stopRequests (src : Source) (f : Frame) : (s.transmit src f).stopRequests = s.stopRequests := rfl
@[simp] theorem State.transmit_chan (src : Source) (f : Frame) (j : ChanId) : (s.transmit src f).chan j = s.chan j := by
  show (s.transmit src f).channels[j.val] = _; rw [State.transmit_channels]; rfl
@[simp] theorem State.transmit_bank (src : Source) (f : Frame) (j : BankId) : (s.transmit src f).bank j = s.bank j := by
  show (s.transmit src f).banks[j.val] = _; rw [State.transmit_banks]; rfl
@[simp] theorem State.transmit_lane (src : Source) (f : Frame) (j : LaneId) : (s.transmit src f).lane j = s.lane j := by
  show (s.transmit src f).lanes[j.val] = _; rw [State.transmit_lanes]; rfl
@[simp] theorem State.transmit_watch (src : Source) (f : Frame) (j : WatchId) : (s.transmit src f).watch j = s.watch j := by
  show (s.transmit src f).watches[j.val] = _; rw [State.transmit_watches]; rfl
@[simp] theorem State.transmit_deliv (src : Source) (f : Frame) (j : ChanId) : (s.transmit src f).deliv j = s.deliv j := by
  show (s.transmit src f).delivery[j.val] = _; rw [State.transmit_delivery]; rfl
@[simp] theorem State.transmit_ring (src : Source) (f : Frame) (j : ChanId) : (s.transmit src f).ring j = s.ring j := by
  show (s.transmit src f).engine.rings[j.val] = _; rw [State.transmit_engine]; rfl

/-! ## startNotice -/

@[simp] theorem State.startNotice_link : s.startNotice.link = s.link := by unfold State.startNotice; split <;> simp
@[simp] theorem State.startNotice_channels : s.startNotice.channels = s.channels := by unfold State.startNotice; split <;> simp
@[simp] theorem State.startNotice_coeffMem : s.startNotice.coeffMem = s.coeffMem := by unfold State.startNotice; split <;> simp
@[simp] theorem State.startNotice_pool : s.startNotice.pool = s.pool := by unfold State.startNotice; split <;> simp
@[simp] theorem State.startNotice_banks : s.startNotice.banks = s.banks := by unfold State.startNotice; split <;> simp
@[simp] theorem State.startNotice_lanes : s.startNotice.lanes = s.lanes := by unfold State.startNotice; split <;> simp
@[simp] theorem State.startNotice_engine : s.startNotice.engine = s.engine := by unfold State.startNotice; split <;> simp
@[simp] theorem State.startNotice_watches : s.startNotice.watches = s.watches := by unfold State.startNotice; split <;> simp
@[simp] theorem State.startNotice_delivery : s.startNotice.delivery = s.delivery := by unfold State.startNotice; split <;> simp
@[simp] theorem State.startNotice_resend : s.startNotice.resend = s.resend := by unfold State.startNotice; split <;> simp
@[simp] theorem State.startNotice_pending : s.startNotice.pending = s.pending := by unfold State.startNotice; split <;> simp
@[simp] theorem State.startNotice_stopRequests : s.startNotice.stopRequests = s.stopRequests := by unfold State.startNotice; split <;> simp
@[simp] theorem State.startNotice_chan (j : ChanId) : s.startNotice.chan j = s.chan j := by
  show s.startNotice.channels[j.val] = _; rw [State.startNotice_channels]; rfl
@[simp] theorem State.startNotice_bank (j : BankId) : s.startNotice.bank j = s.bank j := by
  show s.startNotice.banks[j.val] = _; rw [State.startNotice_banks]; rfl
@[simp] theorem State.startNotice_lane (j : LaneId) : s.startNotice.lane j = s.lane j := by
  show s.startNotice.lanes[j.val] = _; rw [State.startNotice_lanes]; rfl
@[simp] theorem State.startNotice_watch (j : WatchId) : s.startNotice.watch j = s.watch j := by
  show s.startNotice.watches[j.val] = _; rw [State.startNotice_watches]; rfl
@[simp] theorem State.startNotice_deliv (j : ChanId) : s.startNotice.deliv j = s.deliv j := by
  show s.startNotice.delivery[j.val] = _; rw [State.startNotice_delivery]; rfl
@[simp] theorem State.startNotice_ring (j : ChanId) : s.startNotice.ring j = s.ring j := by
  show s.startNotice.engine.rings[j.val] = _; rw [State.startNotice_engine]; rfl

/-! ## startResend -/

@[simp] theorem State.startResend_link (c : ChanId) (b : BatchId) : (s.startResend c b).link = s.link := rfl
@[simp] theorem State.startResend_coeffMem (c : ChanId) (b : BatchId) : (s.startResend c b).coeffMem = s.coeffMem := rfl
@[simp] theorem State.startResend_pool (c : ChanId) (b : BatchId) : (s.startResend c b).pool = s.pool := rfl
@[simp] theorem State.startResend_banks (c : ChanId) (b : BatchId) : (s.startResend c b).banks = s.banks := rfl
@[simp] theorem State.startResend_lanes (c : ChanId) (b : BatchId) : (s.startResend c b).lanes = s.lanes := rfl
@[simp] theorem State.startResend_engine (c : ChanId) (b : BatchId) : (s.startResend c b).engine = s.engine := rfl
@[simp] theorem State.startResend_watches (c : ChanId) (b : BatchId) : (s.startResend c b).watches = s.watches := rfl
@[simp] theorem State.startResend_pending (c : ChanId) (b : BatchId) : (s.startResend c b).pending = s.pending := rfl
@[simp] theorem State.startResend_stopRequests (c : ChanId) (b : BatchId) : (s.startResend c b).stopRequests = s.stopRequests := rfl
@[simp] theorem State.startResend_bank (c : ChanId) (b : BatchId) (j : BankId) : (s.startResend c b).bank j = s.bank j := by
  show (s.startResend c b).banks[j.val] = _; rw [State.startResend_banks]; rfl
@[simp] theorem State.startResend_lane (c : ChanId) (b : BatchId) (j : LaneId) : (s.startResend c b).lane j = s.lane j := by
  show (s.startResend c b).lanes[j.val] = _; rw [State.startResend_lanes]; rfl
@[simp] theorem State.startResend_watch (c : ChanId) (b : BatchId) (j : WatchId) : (s.startResend c b).watch j = s.watch j := by
  show (s.startResend c b).watches[j.val] = _; rw [State.startResend_watches]; rfl
@[simp] theorem State.startResend_ring (c : ChanId) (b : BatchId) (j : ChanId) : (s.startResend c b).ring j = s.ring j := by
  show (s.startResend c b).engine.rings[j.val] = _; rw [State.startResend_engine]; rfl

/-! ## startBatch -/

@[simp] theorem State.startBatch_link (c : ChanId) (b : BatchId) : (s.startBatch c b).link = s.link := rfl
@[simp] theorem State.startBatch_channels (c : ChanId) (b : BatchId) : (s.startBatch c b).channels = s.channels := rfl
@[simp] theorem State.startBatch_coeffMem (c : ChanId) (b : BatchId) : (s.startBatch c b).coeffMem = s.coeffMem := rfl
@[simp] theorem State.startBatch_pool (c : ChanId) (b : BatchId) : (s.startBatch c b).pool = s.pool := rfl
@[simp] theorem State.startBatch_banks (c : ChanId) (b : BatchId) : (s.startBatch c b).banks = s.banks := rfl
@[simp] theorem State.startBatch_lanes (c : ChanId) (b : BatchId) : (s.startBatch c b).lanes = s.lanes := rfl
@[simp] theorem State.startBatch_engine (c : ChanId) (b : BatchId) : (s.startBatch c b).engine = s.engine := rfl
@[simp] theorem State.startBatch_watches (c : ChanId) (b : BatchId) : (s.startBatch c b).watches = s.watches := rfl
@[simp] theorem State.startBatch_resend (c : ChanId) (b : BatchId) : (s.startBatch c b).resend = s.resend := rfl
@[simp] theorem State.startBatch_pending (c : ChanId) (b : BatchId) : (s.startBatch c b).pending = s.pending := rfl
@[simp] theorem State.startBatch_stopRequests (c : ChanId) (b : BatchId) : (s.startBatch c b).stopRequests = s.stopRequests := rfl
@[simp] theorem State.startBatch_chan (c : ChanId) (b : BatchId) (j : ChanId) : (s.startBatch c b).chan j = s.chan j := by
  show (s.startBatch c b).channels[j.val] = _; rw [State.startBatch_channels]; rfl
@[simp] theorem State.startBatch_bank (c : ChanId) (b : BatchId) (j : BankId) : (s.startBatch c b).bank j = s.bank j := by
  show (s.startBatch c b).banks[j.val] = _; rw [State.startBatch_banks]; rfl
@[simp] theorem State.startBatch_lane (c : ChanId) (b : BatchId) (j : LaneId) : (s.startBatch c b).lane j = s.lane j := by
  show (s.startBatch c b).lanes[j.val] = _; rw [State.startBatch_lanes]; rfl
@[simp] theorem State.startBatch_watch (c : ChanId) (b : BatchId) (j : WatchId) : (s.startBatch c b).watch j = s.watch j := by
  show (s.startBatch c b).watches[j.val] = _; rw [State.startBatch_watches]; rfl
@[simp] theorem State.startBatch_ring (c : ChanId) (b : BatchId) (j : ChanId) : (s.startBatch c b).ring j = s.ring j := by
  show (s.startBatch c b).engine.rings[j.val] = _; rw [State.startBatch_engine]; rfl

/-! ## startFrom -/

@[simp] theorem State.startFrom_link (src : Source) : (s.startFrom src).link = s.link := by
  unfold State.startFrom; repeat' split
  all_goals simp
@[simp] theorem State.startFrom_coeffMem (src : Source) : (s.startFrom src).coeffMem = s.coeffMem := by
  unfold State.startFrom; repeat' split
  all_goals simp
@[simp] theorem State.startFrom_pool (src : Source) : (s.startFrom src).pool = s.pool := by
  unfold State.startFrom; repeat' split
  all_goals simp
@[simp] theorem State.startFrom_banks (src : Source) : (s.startFrom src).banks = s.banks := by
  unfold State.startFrom; repeat' split
  all_goals simp
@[simp] theorem State.startFrom_lanes (src : Source) : (s.startFrom src).lanes = s.lanes := by
  unfold State.startFrom; repeat' split
  all_goals simp
@[simp] theorem State.startFrom_engine (src : Source) : (s.startFrom src).engine = s.engine := by
  unfold State.startFrom; repeat' split
  all_goals simp
@[simp] theorem State.startFrom_watches (src : Source) : (s.startFrom src).watches = s.watches := by
  unfold State.startFrom; repeat' split
  all_goals simp
@[simp] theorem State.startFrom_pending (src : Source) : (s.startFrom src).pending = s.pending := by
  unfold State.startFrom; repeat' split
  all_goals simp
@[simp] theorem State.startFrom_stopRequests (src : Source) : (s.startFrom src).stopRequests = s.stopRequests := by
  unfold State.startFrom; repeat' split
  all_goals simp
@[simp] theorem State.startFrom_bank (src : Source) (j : BankId) : (s.startFrom src).bank j = s.bank j := by
  show (s.startFrom src).banks[j.val] = _; rw [State.startFrom_banks]; rfl
@[simp] theorem State.startFrom_lane (src : Source) (j : LaneId) : (s.startFrom src).lane j = s.lane j := by
  show (s.startFrom src).lanes[j.val] = _; rw [State.startFrom_lanes]; rfl
@[simp] theorem State.startFrom_watch (src : Source) (j : WatchId) : (s.startFrom src).watch j = s.watch j := by
  show (s.startFrom src).watches[j.val] = _; rw [State.startFrom_watches]; rfl
@[simp] theorem State.startFrom_ring (src : Source) (j : ChanId) : (s.startFrom src).ring j = s.ring j := by
  show (s.startFrom src).engine.rings[j.val] = _; rw [State.startFrom_engine]; rfl

@[simp] theorem State.performDeviceReset_coeffMem : s.performDeviceReset.coeffMem = s.coeffMem := rfl
@[simp] theorem State.performPowerReset_coeffMem (c : ResetCause) (b : Bool) : (s.performPowerReset c b).coeffMem = s.coeffMem := rfl
@[simp] theorem State.replyEffect_coeffMem (r : Reply) : (s.replyEffect r).coeffMem = s.coeffMem := by
  unfold State.replyEffect; repeat' split
  all_goals simp
@[simp] theorem State.replySent_coeffMem : s.replySent.coeffMem = s.coeffMem := by unfold State.replySent; split <;> simp
@[simp] theorem State.freeTransmitter_coeffMem : s.freeTransmitter.coeffMem = s.coeffMem := rfl
@[simp] theorem State.sent_coeffMem (src : Source) : (s.sent src).1.coeffMem = s.coeffMem := by unfold State.sent; split <;> simp
@[simp] theorem State.abandon_coeffMem (t : Transmission) : (s.abandon t).coeffMem = s.coeffMem := by unfold State.abandon; split <;> simp
@[simp] theorem State.abandonTransmission_coeffMem : s.abandonTransmission.coeffMem = s.coeffMem := by
  unfold State.abandonTransmission; split <;> simp
@[simp] theorem State.performLinkReset_coeffMem : s.performLinkReset.coeffMem = s.coeffMem := by simp [State.performLinkReset]
@[simp] theorem Raising.settle_coeffMem (r : Raising) : r.settle.coeffMem = r.1.coeffMem := by simp [Raising.settle]
@[simp] theorem State.performDeviceReset_pending : s.performDeviceReset.pending = s.pending := rfl
@[simp] theorem State.performPowerReset_pending (c : ResetCause) (b : Bool) : (s.performPowerReset c b).pending = s.pending := rfl
@[simp] theorem State.replyEffect_pending (r : Reply) : (s.replyEffect r).pending = s.pending := by
  unfold State.replyEffect; repeat' split
  all_goals simp
@[simp] theorem State.replySent_pending : s.replySent.pending = s.pending := by unfold State.replySent; split <;> simp
@[simp] theorem State.freeTransmitter_pending : s.freeTransmitter.pending = s.pending := rfl
@[simp] theorem State.freeTransmitter_stopRequests : s.freeTransmitter.stopRequests = s.stopRequests := rfl
@[simp] theorem State.sent_pending (src : Source) : (s.sent src).1.pending = s.pending := by unfold State.sent; split <;> simp
@[simp] theorem State.abandon_pending (t : Transmission) : (s.abandon t).pending = s.pending := by unfold State.abandon; split <;> simp
@[simp] theorem State.abandon_stopRequests (t : Transmission) : (s.abandon t).stopRequests = s.stopRequests := by unfold State.abandon; split <;> simp
@[simp] theorem State.abandonTransmission_pending : s.abandonTransmission.pending = s.pending := by
  unfold State.abandonTransmission; split <;> simp
@[simp] theorem State.abandonTransmission_stopRequests : s.abandonTransmission.stopRequests = s.stopRequests := by
  unfold State.abandonTransmission; split <;> simp
@[simp] theorem State.performLinkReset_pending : s.performLinkReset.pending = s.pending := by simp [State.performLinkReset]
@[simp] theorem Raising.settle_pending (r : Raising) : r.settle.pending = r.1.pending := by simp [Raising.settle]
@[simp] theorem Raising.settle_stopRequests (r : Raising) : r.settle.stopRequests = r.1.stopRequests := by simp [Raising.settle]

end Sys2Proof.Machine
end

