-- ==== Sys2Proof/Laws/Completion.lean ====
section
/-! SUPPORT. What a dispatch completion does to one channel: the close of a stop, the locality of the steps of
an entry, the settling of the other entries, and the notices of an entry in the merged list. -/

namespace Sys2Proof.Machine

/-! ## The drain and the close (R15, R99, R110) -/

theorem State.drainReport_byCommand (s : State) (c : ChanId) (h : (s.chan c).state = .stopping)
    (h' : (s.chan c).stopCause = some .command) :
    s.drainReport c = (s.modChan c fun ch =>
      { ch with state := .ready, stopCause := none, opSlot := ch.opSlot.finishOp .stop .ok }, []) := by
  unfold State.drainReport
  rw [h, h']

theorem State.drainReport_byWatch (s : State) (c : ChanId) (h : (s.chan c).state = .stopping)
    (h' : (s.chan c).stopCause = some .watch) :
    s.drainReport c =
      (s.modChan c fun ch => { ch with state := .ready, stopCause := none }, [.channelStopped c]) := by
  unfold State.drainReport
  rw [h, h']

/-- A batch is READY or INFLIGHT exactly when the drain is not complete. -/
theorem ChanDelivery.drained_iff {d : ChanDelivery} :
    d.drained = true ↔ ∀ b, (d.slot b).state ≠ .ready ∧ (d.slot b).state ≠ .inflight := by
  simp [ChanDelivery.drained, ChanDelivery.count_eq_zero, forall_and]

/-- With no FILLING batch the close reports a pending loss. -/
theorem State.closeFilling_none (s : State) (c : ChanId) (h : ∀ x, ((s.deliv c).slot x).state ≠ .filling) :
    (s.closeFilling c).2 = lossNotice c (s.deliv c) ∧
      (s.closeFilling c).1.deliv c = { s.deliv c with pendingLost := 0 } := by
  unfold State.closeFilling lossNotice
  dsimp only
  rw [ChanDelivery.lowest_eq_none.2 h]
  dsimp only
  split
  · next hp => exact ⟨rfl, by rw [← hp]⟩
  · simp

/-- The drain watch turned on with no FILLING batch, seen from the channel. -/
theorem State.closeBatch_none (s : State) (c : ChanId) (hd : (s.deliv c).drainWatch = false)
    (h : ∀ x, ((s.deliv c).slot x).state ≠ .filling) :
    ∃ t : State, t.chan c = s.chan c ∧ t.deliv c = { s.deliv c with pendingLost := 0, drainWatch := true } ∧
      (s.closeBatch c).1 = (t.checkDrain c).1 ∧
      (s.closeBatch c).2 = lossNotice c (s.deliv c) ++ (t.checkDrain c).2 := by
  obtain ⟨h1, h2⟩ := s.closeFilling_none c h
  refine ⟨(s.closeFilling c).1.modDeliv c fun d => { d with drainWatch := true }, by simp, ?_, ?_, ?_⟩
  · rw [State.modDeliv_deliv_same, h2]
  · simp [State.closeBatch, hd, Raising.andThen]
  · simp [State.closeBatch, hd, Raising.andThen, h1]

/-- What the close of a STOPPING channel makes of it. -/
theorem State.closeBatch_closes (s : State) (c : ChanId) (h : (s.chan c).state = .stopping) :
    Closes c (s.chan c) (s.deliv c) ((s.closeBatch c).1.chan c) ((s.closeBatch c).1.deliv c)
      (s.closeBatch c).2 := by
  have open_ (hd : (s.deliv c).drainWatch = false) (hf : ∀ x, ((s.deliv c).slot x).state = .free) :
      ∃ t : State, t.chan c = s.chan c ∧
        t.deliv c = { s.deliv c with pendingLost := 0, drainWatch := false } ∧
        (s.closeBatch c).1 = (t.drainReport c).1 ∧
        (s.closeBatch c).2 = lossNotice c (s.deliv c) ++ (t.drainReport c).2 := by
    obtain ⟨t, h1, h2, h3, h4⟩ := s.closeBatch_none c hd (fun x => by rw [hf x]; exact (nomatch ·))
    have hdr : (t.deliv c).drained = true := by
      rw [ChanDelivery.drained_iff, h2]
      intro b
      show ((s.deliv c).slot b).state ≠ _ ∧ ((s.deliv c).slot b).state ≠ _
      rw [hf b]
      exact ⟨(nomatch ·), (nomatch ·)⟩
    have hc : t.checkDrain c = (t.modDeliv c fun d => { d with drainWatch := false }).drainReport c := by
      unfold State.checkDrain
      rw [if_pos (by rw [hdr, h2]; rfl)]
    refine ⟨t.modDeliv c fun d => { d with drainWatch := false }, by simpa using h1, ?_, ?_, ?_⟩
    · rw [State.modDeliv_deliv_same, h2]
    · rw [h3, hc]
    · rw [h4, hc]
  constructor
  · intro hd
    simp [State.closeBatch, hd]
  · intro b hd hb hl
    have hlow : (s.deliv c).lowest .filling = some b := ChanDelivery.lowest_eq_some.2 ⟨hb, hl⟩
    have hn : ChanDelivery.drained { (s.deliv c).makeReady b true with drainWatch := true } = false := by
      rw [← Bool.not_eq_true, ChanDelivery.drained_iff]
      intro hx
      exact (hx b).1 (by simp [ChanDelivery.slot, ChanDelivery.makeReady, ChanDelivery.modSlot])
    have hc : s.closeBatch c =
        ((s.modDeliv c fun d => d.makeReady b true).modDeliv c fun d => { d with drainWatch := true }, []) := by
      unfold State.closeBatch State.closeFilling
      dsimp only
      rw [hd, hlow]
      simp only [Raising.andThen, State.checkDrain, State.modDeliv_deliv_same, hn]
      rfl
    rw [hc]
    refine ⟨by simp, rfl, ?_⟩
    rw [State.modDeliv_deliv_same, State.modDeliv_deliv_same]
    rfl
  · intro hd hf hx
    obtain ⟨t, h1, h2, h3, h4⟩ := s.closeBatch_none c hd hf
    have hdr : (t.deliv c).drained = false := by
      rw [← Bool.not_eq_true, ChanDelivery.drained_iff, h2]
      intro ha
      obtain ⟨x, hx⟩ := hx
      have := ha x
      have hfx := hf x
      change ((s.deliv c).slot x).state ≠ _ ∧ ((s.deliv c).slot x).state ≠ _ at this
      cases hs : ((s.deliv c).slot x).state <;> simp [hs] at this hfx hx
    have hc : t.checkDrain c = (t, []) := by
      unfold State.checkDrain
      rw [if_neg (by rw [hdr]; simp)]
    rw [h3, h4, hc]
    exact ⟨h1, by simp, h2⟩
  · intro hd hf hcause
    obtain ⟨t, h1, h2, h3, h4⟩ := open_ hd hf
    rw [h3, h4, t.drainReport_byCommand c (by rw [h1, h]) (by rw [h1, hcause])]
    refine ⟨by simp [h1], by simp, by simpa using h2⟩
  · intro hd hf hcause
    obtain ⟨t, h1, h2, h3, h4⟩ := open_ hd hf
    rw [h3, h4, t.drainReport_byWatch c (by rw [h1, h]) (by rw [h1, hcause])]
    refine ⟨by simp [h1], by simp, by simpa using h2⟩

/-! ## What the settling of one entry leaves alone -/

/-- Only reference counts differ between the banks of two states. -/
def State.SameBanks (s t : State) : Prop := ∀ b, t.bank b = { s.bank b with refs := (t.bank b).refs }

theorem State.SameBanks.of_banks {s t : State} (h : t.banks = s.banks) : s.SameBanks t := by
  intro b
  show t.banks[b.val] = { s.banks[b.val] with refs := t.banks[b.val].refs }
  rw [h]

theorem State.SameBanks.trans {s t u : State} (h : s.SameBanks t) (h' : t.SameBanks u) : s.SameBanks u := by
  intro b
  rw [h' b, h b]

theorem State.dropRef?_sameBanks (s : State) (o : Option BankId) : s.SameBanks (s.dropRef? o) := by
  cases o with
  | none => exact .of_banks rfl
  | some x =>
    intro b
    simp only [State.dropRef?, State.dropRef, State.modBank_bank]
    split
    · next h => rw [h]
    · rfl

theorem State.swapPoint_sameBanks (s : State) (c : ChanId) : s.SameBanks (s.swapPoint c) := by
  unfold State.swapPoint
  split
  · exact .of_banks rfl
  · exact (s.dropRef?_sameBanks (s.chan c).active).trans (.of_banks rfl)

theorem State.releaseStaged_sameBanks (s : State) (c : ChanId) : s.SameBanks (s.releaseStaged c) :=
  (s.dropRef?_sameBanks (s.chan c).staged).trans (.of_banks rfl)

theorem State.stopRequest_sameBanks (s : State) (c : ChanId) : s.SameBanks (s.stopRequest c) := by
  unfold State.stopRequest
  split
  · exact (s.releaseStaged_sameBanks c).trans (.of_banks (by simp))
  all_goals exact .of_banks rfl

theorem State.swapAndStop_sameBanks (s : State) (c : ChanId) (before after : Bool) :
    s.SameBanks (s.swapAndStop c before after) := by
  have stop (t : State) (b : Bool) : t.SameBanks (if b then t.stopRequest c else t) := by
    split
    · exact t.stopRequest_sameBanks c
    · exact .of_banks rfl
  exact ((stop s before).trans (State.swapPoint_sameBanks _ c)).trans (stop _ after)

theorem State.handOn_sameBanks (s : State) (c : ChanId) (r : Result) (n : Nat) (ch : CompletionChoice) :
    s.SameBanks (s.handOn c r n ch).1 := by
  unfold State.handOn
  dsimp only
  refine (State.SameBanks.trans ?_ (State.swapAndStop_sameBanks _ c _ _)).trans
    (.of_banks (State.leaveRequests_banks _ c _))
  exact .of_banks (by simp)

theorem State.closeIfStopping_sameBanks (s : State) (c : ChanId) : s.SameBanks (s.closeIfStopping c).1 :=
  .of_banks (by simp)

theorem State.settlePassing_sameBanks (s : State) (ch : CompletionChoice) (d : Dispatch) (e : SnapEntry) :
    s.SameBanks (s.settlePassing ch d e).1 := by
  unfold State.settlePassing
  dsimp only [Raising.andThen]
  refine State.SameBanks.trans ?_ (State.closeIfStopping_sameBanks _ _)
  repeat' split
  · exact State.SameBanks.trans (.of_banks (by simp)) (State.handOn_sameBanks _ _ _ _ _)
  all_goals exact .of_banks (by simp)

theorem State.faultClaim_sameBanks (s : State) (c : ChanId) (cause : FaultCause) :
    s.SameBanks (s.faultClaim c cause).1 := by
  unfold State.faultClaim
  split
  · exact State.SameBanks.trans (State.SameBanks.of_banks (by simp))
      ((State.releaseStaged_sameBanks (s.discard c) c).trans (.of_banks (by simp [State.endRun])))
  · exact .of_banks rfl

theorem State.settleEntry_sameBanks (s : State) (ch : CompletionChoice) (d : Dispatch) (e : SnapEntry) :
    s.SameBanks (s.settleEntry ch d e).1 := by
  unfold State.settleEntry
  split
  · exact s.faultClaim_sameBanks _ _
  · exact s.settlePassing_sameBanks ch d e

theorem State.completeEntry_sameBanks (s : State) (ch : CompletionChoice) (d : Dispatch) (e : SnapEntry) :
    s.SameBanks (s.completeEntry ch d e).1 := by
  unfold State.completeEntry
  split
  · exact s.settleEntry_sameBanks ch d e
  · exact s.closeIfStopping_sameBanks _

/-- Two states agree on everything that a completion reads or writes for channel `c`. -/
structure State.SameFor (s t : State) (c : ChanId) : Prop where
  chan    : t.chan c = s.chan c
  deliv   : t.deliv c = s.deliv c
  ring    : t.ring c = s.ring c
  watches : ∀ w, (t.watch w).channel = (s.watch w).channel ∧
    ((s.watch w).channel = c → t.watch w = s.watch w)
  resend  : ∀ b, (c, b) ∈ t.resend ↔ (c, b) ∈ s.resend
  stops   : t.stopRequests.filter (· == c) = s.stopRequests.filter (· == c)
  banks   : s.SameBanks t

theorem State.SameFor.refl (s : State) (c : ChanId) : s.SameFor s c :=
  ⟨rfl, rfl, rfl, fun _ => ⟨rfl, fun _ => rfl⟩, fun _ => .rfl, rfl, .of_banks rfl⟩

theorem State.SameFor.trans {s t u : State} {c : ChanId} (h : s.SameFor t c) (h' : t.SameFor u c) :
    s.SameFor u c where
  chan := h'.chan.trans h.chan
  deliv := h'.deliv.trans h.deliv
  ring := h'.ring.trans h.ring
  watches w := ⟨(h'.watches w).1.trans (h.watches w).1, fun hw =>
    ((h'.watches w).2 ((h.watches w).1.trans hw)).trans ((h.watches w).2 hw)⟩
  resend b := (h'.resend b).trans (h.resend b)
  stops := h'.stops.trans h.stops
  banks := h.banks.trans h'.banks

/-- One evaluation leaves the watches on every other channel, and no watch changes its channel. -/
theorem Watch.evaluate_channel (w : Watch) (v : Output) : (w.evaluate v).1.channel = w.channel := by
  unfold Watch.evaluate
  repeat' split
  all_goals rfl

theorem Evaluation.step_watches (c : ChanId) (i : OutIndex) (v : Output) (e : Evaluation) (w x : WatchId) :
    ((e.step c i v w).state.watch x).channel = (e.state.watch x).channel ∧
      ((e.state.watch x).channel ≠ c → (e.step c i v w).state.watch x = e.state.watch x) := by
  have key : ∀ r : Watch, r.channel = (e.state.watch w).channel → (e.state.watch w).channel = c →
      (((e.state.modWatch w fun _ => r).watch x).channel = (e.state.watch x).channel ∧
        ((e.state.watch x).channel ≠ c → (e.state.modWatch w fun _ => r).watch x = e.state.watch x)) := by
    intro r hr hc
    rw [State.modWatch_watch]
    split
    · next hx => exact ⟨by rw [hx, hr], fun hn => absurd hc (hx ▸ hn)⟩
    · exact ⟨rfl, fun _ => rfl⟩
  unfold Evaluation.step
  dsimp only
  split
  · next hc =>
    split
    all_goals exact key _ (Watch.evaluate_channel _ _) hc
  · exact ⟨rfl, fun _ => rfl⟩

theorem Evaluation.fold_watches (c : ChanId) (i : OutIndex) (v : Output) (ws : List WatchId) (e : Evaluation)
    (x : WatchId) :
    ((ws.foldl (Evaluation.step c i v) e).state.watch x).channel = (e.state.watch x).channel ∧
      ((e.state.watch x).channel ≠ c → (ws.foldl (Evaluation.step c i v) e).state.watch x = e.state.watch x) := by
  induction ws generalizing e with
  | nil => exact ⟨rfl, fun _ => rfl⟩
  | cons w ws ih =>
    have h := Evaluation.step_watches c i v e w x
    have k := ih (e.step c i v w)
    rw [List.foldl_cons]
    exact ⟨k.1.trans h.1, fun hn => (k.2 (by rw [h.1]; exact hn)).trans (h.2 hn)⟩

theorem State.handOn_watches (s : State) (c : ChanId) (r : Result) (n : Nat) (b : CompletionChoice) (x : WatchId) :
    ((s.handOn c r n b).1.watch x).channel = (s.watch x).channel ∧
      ((s.watch x).channel ≠ c → (s.handOn c r n b).1.watch x = s.watch x) := by
  have h := Evaluation.fold_watches c (s.chan c).outIndex r.value (List.finRange 8)
    ⟨((s.setFlags c r n).append c (s.chan c).outIndex r.value).1, [], []⟩ x
  simp only [State.append_watch, State.setFlags_watch] at h
  simpa [State.handOn, State.evaluate] using h

/-- An output appended leaves the channel's state. -/
theorem State.append_state (s : State) (c : ChanId) (i : OutIndex) (v : Output) :
    ((s.append c i v).1.chan c).state = (s.chan c).state := by
  unfold State.append
  dsimp only
  split <;> simp [State.loseOutput]

/-- Requests of one channel taken out leave those of every other. -/
theorem filter_ignored (l : List ChanId) (c k : ChanId) (h : c ≠ k) :
    (l.filter (· != k)).filter (· == c) = l.filter (· == c) := by
  rw [List.filter_filter]
  refine List.filter_congr fun x _ => ?_
  by_cases hx : x = c <;> simp [hx, h]

/-- What an output handed on does to the requests that wait: none is left or ignored; or its channel is stopped,
and the channel's are ignored; or one is left for a channel that goes on running and had none. -/
theorem State.handOn_stopRequests (s : State) (c : ChanId) (r : Result) (n : Nat) (choice : CompletionChoice) :
    let t := (s.handOn c r n choice).1
    t.stopRequests = s.stopRequests ∧ (t.chan c).state = (s.chan c).state ∨
      t.stopRequests = s.stopRequests.filter (· != c) ∧ (s.chan c).state = .running ∧
        (t.chan c).state = .stopping ∨
      t.stopRequests = s.stopRequests ++ [c] ∧ (s.chan c).state = .running ∧ (t.chan c).state = .running ∧
        c ∉ s.stopRequests := by
  unfold State.handOn
  dsimp only
  generalize hw : (State.append _ c _ r.value).1.evaluate c _ r.value = w
  generalize hu : (w.state.modChan c fun ch => { ch with outIndex := ch.outIndex + 1 }) = u
  have hs : (u.chan c).state = (s.chan c).state := by
    rw [← hu, ← hw]; simp [State.append_state, State.setFlags]
  have hr : u.stopRequests = s.stopRequests := by rw [← hu, ← hw]; simp
  rw [State.leaveRequests_chan, State.leaveRequests_stopRequests, State.swapAndStop_state,
    State.swapAndStop_stopRequests, hs, hr]
  generalize (!(requestsTaken choice w.stops true).isEmpty) = a
  generalize (!(requestsTaken choice w.stops false).isEmpty) = b
  generalize w.stops.filter choice.stopLate.contains = ws
  by_cases hrun : (s.chan c).state = .running
  · by_cases hst : a = true ∨ b = true
    · exact .inr (.inl (by simp [hrun, hst]))
    · by_cases hl : ws ≠ [] ∧ c ∉ s.stopRequests
      · exact .inr (.inr (by simp [hrun, hst, hl.1, hl.2]))
      · exact .inl (by simp [hrun, hst]; simpa using hl)
  · exact .inl (by simp [hrun])

theorem State.handOn_other (s : State) (c : ChanId) (r : Result) (n : Nat) (b : CompletionChoice) (j : ChanId) (h : j ≠ c) :
    (s.handOn c r n b).1.chan j = s.chan j ∧ (s.handOn c r n b).1.deliv j = s.deliv j := by
  constructor
  · simp [State.handOn, State.swapAndStop_chan_ne, State.modChan_chan_ne, State.append_chan_ne,
      State.setFlags_chan_ne, h]
  · simp [State.handOn, State.append_deliv_ne, h]

/-- The close leaves every other channel. -/
theorem State.closeIfStopping_other (s : State) (k c : ChanId) (h : c ≠ k) : s.SameFor (s.closeIfStopping k).1 c :=
  ⟨State.closeIfStopping_chan_ne _ _ _ h, State.closeIfStopping_deliv_ne _ _ _ h, by simp, fun w => by simp,
    fun b => by simp, by simp, s.closeIfStopping_sameBanks k⟩

/-- The settling of one entry leaves every other channel. -/
theorem State.completeEntry_other (s : State) (ch : CompletionChoice) (d : Dispatch) (e : SnapEntry) (c : ChanId)
    (h : c ≠ e.channel) : s.SameFor (s.completeEntry ch d e).1 c := by
  have pass : s.SameFor (s.settlePassing ch d e).1 c := by
    have sample (x : FifoEntry) : s.SameFor (s.takeSample e.channel x) c :=
      ⟨State.takeSample_chan_ne _ _ _ _ h, by simp, State.takeSample_ring_ne _ _ _ _ h, fun w => by simp,
        fun b => by simp, by simp, .of_banks (by simp)⟩
    unfold State.settlePassing
    dsimp only [Raising.andThen]
    refine State.SameFor.trans ?_ (State.closeIfStopping_other _ _ _ h)
    repeat' split
    · refine (sample d.sample).trans ⟨(State.handOn_other _ _ _ _ _ _ h).1, (State.handOn_other _ _ _ _ _ _ h).2,
        by simp, fun w => ?_, fun b => by simp, ?_, State.handOn_sameBanks _ _ _ _ _⟩
      exact ⟨(State.handOn_watches _ _ _ _ _ w).1, fun hw =>
        (State.handOn_watches _ _ _ _ _ w).2 (by rw [hw]; exact h)⟩
      · rcases State.handOn_stopRequests _ _ _ _ ch with q | q | q <;> rw [q.1]
        · exact filter_ignored _ _ _ h
        · simp [List.filter_append, Ne.symm h]
    all_goals exact sample d.sample
  unfold State.completeEntry State.settleEntry
  repeat' split
  · refine ⟨State.faultClaim_chan_ne _ _ _ _ h, State.faultClaim_deliv_ne _ _ _ _ h, by simp, fun w => by simp,
      fun b => ?_, ?_, s.faultClaim_sameBanks _ _⟩
    all_goals unfold State.faultClaim; split
    · simp [State.endRun, State.discard, h]
    · rfl
    · simp [State.endRun, State.discard]
    · rfl
  · exact pass
  · exact State.closeIfStopping_other _ _ _ h

/-! ## The settling of all entries, seen from one channel -/

/-- Entries of other channels leave the channel. -/
theorem State.settleAll_other (ch : CompletionChoice) (d : Dispatch) (es : List SnapEntry) (s : State) (c : ChanId)
    (h : ∀ e ∈ es, e.channel ≠ c) : s.SameFor (State.settleAll ch d es s).1 c := by
  induction es generalizing s with
  | nil => exact .refl s c
  | cons e es ih =>
    exact (s.completeEntry_other ch d e c (h e (by simp)).symm).trans
      (ih _ fun x hx => h x (List.mem_cons_of_mem _ hx))

/-- With one entry a channel, what the completion does to a channel is what its own entry does, in a state that
agrees with the one before on the channel; and that entry's notices stand in the log under the channel. -/
theorem State.settleAll_focus (ch : CompletionChoice) (d : Dispatch) (es : List SnapEntry) (s : State)
    (e : SnapEntry) (hn : (es.map (·.channel)).Nodup) (he : e ∈ es) :
    ∃ u : State, s.SameFor u e.channel ∧
      (u.completeEntry ch d e).1.SameFor (State.settleAll ch d es s).1 e.channel ∧
      (e.channel, (u.completeEntry ch d e).2) ∈ (State.settleAll ch d es s).2 := by
  induction es generalizing s with
  | nil => exact absurd he (by simp)
  | cons x es ih =>
    rw [List.map_cons, List.nodup_cons] at hn
    rcases List.mem_cons.1 he with rfl | he
    · refine ⟨s, .refl s _, ?_, by simp [State.settleAll]⟩
      refine State.settleAll_other ch d es _ _ fun y hy hc => hn.1 ?_
      exact List.mem_map.2 ⟨y, hy, hc⟩
    · have hx : e.channel ≠ x.channel := fun hc => hn.1 (List.mem_map.2 ⟨e, he, hc⟩)
      obtain ⟨u, h1, h2, h3⟩ := ih (s.completeEntry ch d x).1 hn.2 he
      exact ⟨u, (s.completeEntry_other ch d x _ hx).trans h1, h2, List.mem_cons_of_mem _ h3⟩

theorem State.settleAll_sameBanks (ch : CompletionChoice) (d : Dispatch) (es : List SnapEntry) (s : State) :
    s.SameBanks (State.settleAll ch d es s).1 := by
  induction es generalizing s with
  | nil => exact .of_banks rfl
  | cons e es ih => exact (s.completeEntry_sameBanks ch d e).trans (ih _)

/-! ## The merged notices -/

/-- A notice taken out of the log heads a list that is in it, and what is left of every list stays. -/
theorem takeNotice_sublist {c : ChanId} {log rest : NoticeLog} {n : Notice}
    (h : takeNotice c log = some (n, rest)) {k : ChanId} {ns : List Notice} (hm : (k, ns) ∈ log) :
    (k, ns) ∈ rest ∨ ∃ tl, ns = n :: tl ∧ (k, tl) ∈ rest := by
  induction log generalizing rest with
  | nil => exact absurd hm (by simp)
  | cons x log ih =>
    obtain ⟨j, ms⟩ := x
    have lift (pre : List Notice)
        (h : ((takeNotice c log).map fun r => (r.1, (j, pre) :: r.2)) = some (n, rest))
        (hx : (k, ns) = (j, pre) ∨ (k, ns) ∈ log) :
        (k, ns) ∈ rest ∨ ∃ tl, ns = n :: tl ∧ (k, tl) ∈ rest := by
      obtain ⟨⟨a, b⟩, hr, hab⟩ := Option.map_eq_some_iff.1 h
      obtain ⟨rfl, rfl⟩ := Prod.mk.inj hab
      rcases hx with hx | hx
      · exact .inl (by rw [hx]; exact List.mem_cons_self)
      · rcases ih hr hx with h1 | ⟨tl, h1, h2⟩
        · exact .inl (List.mem_cons_of_mem _ h1)
        · exact .inr ⟨tl, h1, List.mem_cons_of_mem _ h2⟩
    unfold takeNotice at h
    split at h
    · cases ms with
      | nil => exact lift [] h (List.mem_cons.1 hm)
      | cons a tl =>
        obtain ⟨rfl, rfl⟩ := Prod.mk.inj (Option.some.inj h)
        rcases List.mem_cons.1 hm with hm | hm
        · obtain ⟨rfl, rfl⟩ := Prod.mk.inj hm
          exact .inr ⟨tl, rfl, by simp⟩
        · exact .inl (List.mem_cons_of_mem _ hm)
    · exact lift ms h (List.mem_cons.1 hm)

/-- The merge keeps the order of the notices of every entry. -/
theorem mergeNotices_sublist (order : List ChanId) (log : NoticeLog) {k : ChanId} {ns : List Notice}
    (hm : (k, ns) ∈ log) : ns.Sublist (mergeNotices order log) := by
  induction order generalizing log ns with
  | nil =>
    have := List.sublist_flatten_of_mem (List.mem_map_of_mem (f := Prod.snd) hm)
    rwa [← List.flatMap_def] at this
  | cons c order ih =>
    unfold mergeNotices
    split
    · next n rest h =>
      rcases takeNotice_sublist h hm with h | ⟨tl, rfl, h⟩
      · exact (ih rest h).cons n
      · exact (ih rest h).cons_cons n
    · exact ih log hm

/-- With one entry the merge is that entry's list. -/
theorem mergeNotices_single (order : List ChanId) (c : ChanId) (ns : List Notice) :
    mergeNotices order [(c, ns)] = ns := by
  induction order generalizing ns with
  | nil => simp [mergeNotices]
  | cons k order ih =>
    unfold mergeNotices
    by_cases h : c = k
    · subst h
      cases ns with
      | nil => simpa [takeNotice] using ih []
      | cons n ns => simpa [takeNotice] using ih ns
    · simpa [takeNotice, h] using ih ns

/-! ## The whole completion, seen from one entry -/

/-- An entry after its computation: a failed one has its fault cause (R63). -/
def State.workedEntry (s : State) (d : Dispatch) (e : SnapEntry) : SnapEntry :=
  match s.workEntry d e with
  | .failed cause => { e with fault := some cause }
  | .nothing => e
  | .computed _ => e

theorem State.workedEntry_channel (s : State) (d : Dispatch) (e : SnapEntry) :
    (s.workedEntry d e).channel = e.channel := by
  unfold State.workedEntry
  split <;> rfl

theorem State.workDispatch_snapshot (s : State) (d : Dispatch) :
    (s.workDispatch d).snapshot = d.snapshot.map (s.workedEntry d) := rfl

/-- What arbiter notices leave depends on the arbiter before alone. -/
theorem State.raiseAll_arbiter_congr {s t : State} (ns : List Notice) (h : s.arbiter = t.arbiter) :
    (s.raiseAll ns).arbiter = (t.raiseAll ns).arbiter := by
  induction ns generalizing s t with
  | nil => exact h
  | cons n ns ih => exact ih (by simp only [State.raise, State.modArb, h])

/-- The state in which the entries of a dispatch are settled: the words found bad are marked, and the banks they
are in damaged. -/
def State.worked (s : State) (d : Dispatch) (choice : CompletionChoice) : State :=
  (s.upsetHistory d choice.badHistory).damageFound d

/-- What a completion does for the channel of one entry is what the settling of the entry does, in a state that
agrees with the one worked on. Its notices stay in their order among those raised, and are all there are where
it is the only entry. -/
theorem State.complete_focus (s : State) (d : Dispatch) (choice : CompletionChoice) (e : SnapEntry)
    (hn : (d.snapshot.map (·.channel)).Nodup) (he : e ∈ d.snapshot) :
    let s0 := s.upsetHistory d choice.badHistory
    let d' := s0.workDispatch d
    let e' := s0.workedEntry d e
    ∃ (u : State) (ns : List Notice), (s.worked d choice).SameFor u e.channel ∧
      let r := u.completeEntry choice d' e'
      let t := s.complete d choice
      t.chan e.channel = r.1.chan e.channel ∧ t.deliv e.channel = r.1.deliv e.channel ∧
      t.ring e.channel = r.1.ring e.channel ∧
      (∀ w, (r.1.watch w).channel = e.channel → t.watch w = r.1.watch w) ∧
      (∀ b, (e.channel, b) ∈ t.resend ↔ (e.channel, b) ∈ r.1.resend) ∧
      t.stopRequests.filter (· == e.channel) = r.1.stopRequests.filter (· == e.channel) ∧
      t.arbiter = (s.raiseAll ns).arbiter ∧ r.2.Sublist ns ∧
      (d.snapshot = [e] → u = s.worked d choice ∧ ns = r.2 ∧ ∀ b, (t.bank b).refs = (r.1.bank b).refs) := by
  intro s0 d' e'
  have hmap : d'.snapshot.map (·.channel) = d.snapshot.map (·.channel) := by
    show (d.snapshot.map (s0.workedEntry d)).map (·.channel) = _
    rw [List.map_map]
    exact List.map_congr_left fun x _ => s0.workedEntry_channel d x
  have hc : e'.channel = e.channel := s0.workedEntry_channel d e
  have holds (t : State) (b : BankId) : ((t.setHolds d.snapshot false).bank b).refs = (t.bank b).refs := by
    unfold State.setHolds
    generalize d.snapshot.filterMap (·.bank) = bs
    induction bs generalizing t with
    | nil => rfl
    | cons x bs ih =>
      rw [List.foldl_cons, ih, State.modBank_bank]
      split
      · next h => rw [h]
      · rfl
  let all := State.settleAll choice d' d'.snapshot (s.worked d choice)
  have ht : s.complete d choice =
      ((all.1.setHolds d.snapshot false).setDispatch none).raiseAll (mergeNotices choice.noticeOrder all.2) := rfl
  have harb : (s.complete d choice).arbiter =
      (s.raiseAll (mergeNotices choice.noticeOrder all.2)).arbiter := by
    rw [ht]
    exact State.raiseAll_arbiter_congr _ (by simp [all, State.worked])
  obtain ⟨u, h1, h2, h3⟩ := State.settleAll_focus choice d' d'.snapshot (s.worked d choice) e'
    (by rw [hmap]; exact hn) (List.mem_map.2 ⟨e, he, rfl⟩)
  by_cases hs : d.snapshot = [e]
  · have hsnap : d'.snapshot = [e'] := by
      show d.snapshot.map (s0.workedEntry d) = [e']
      rw [hs]; rfl
    have hall : all = (((s.worked d choice).completeEntry choice d' e').1,
        [(e'.channel, ((s.worked d choice).completeEntry choice d' e').2)]) := by
      show State.settleAll choice d' d'.snapshot (s.worked d choice) = _
      rw [hsnap]; rfl
    refine ⟨s.worked d choice, ((s.worked d choice).completeEntry choice d' e').2, .refl _ _, ?_⟩
    have hm : mergeNotices choice.noticeOrder all.2 = ((s.worked d choice).completeEntry choice d' e').2 := by
      rw [hall]; exact mergeNotices_single _ _ _
    refine ⟨?_, ?_, ?_, fun w _ => ?_, fun b => ?_, ?_, hm ▸ harb, List.Sublist.refl _, fun _ => ⟨rfl, rfl, fun b => ?_⟩⟩
    all_goals rw [ht]; simp [hall, holds]
  · refine ⟨u, mergeNotices choice.noticeOrder all.2, hc ▸ h1, ?_⟩
    rw [hc] at h2
    refine ⟨?_, ?_, ?_, fun w hw => ?_, fun b => ?_, ?_, harb, mergeNotices_sublist _ _ h3, fun h => absurd h hs⟩
    all_goals rw [ht]; simp only [State.raiseAll_chan, State.raiseAll_deliv, State.raiseAll_ring,
      State.raiseAll_watch, State.raiseAll_resend, State.raiseAll_stopRequests, State.setDispatch_stopRequests,
      State.setHolds_stopRequests, State.setDispatch_chan, State.setDispatch_deliv,
      State.setDispatch_ring, State.setDispatch_watch, State.setDispatch_resend, State.setHolds_chan,
      State.setHolds_deliv, State.setHolds_ring, State.setHolds_watch, State.setHolds_resend]
    · exact h2.chan
    · exact h2.deliv
    · exact h2.ring
    · exact (h2.watches w).2 hw
    · exact h2.resend b
    · exact h2.stops

/-! ## Watch stop requests that wait (R21) -/

/-- A drain report starts no run and ends only that of a STOPPING channel. -/
theorem State.drainReport_running (s : State) (c : ChanId) :
    ((s.drainReport c).1.chan c).state = .running ↔ (s.chan c).state = .running := by
  unfold State.drainReport
  split <;> simp [*]

theorem State.checkDrain_running (s : State) (c : ChanId) :
    ((s.checkDrain c).1.chan c).state = .running ↔ (s.chan c).state = .running := by
  unfold State.checkDrain
  split <;> simp [State.drainReport_running]

/-- The close neither starts nor ends a run that goes on. -/
theorem State.closeIfStopping_running (s : State) (c : ChanId) :
    ((s.closeIfStopping c).1.chan c).state = .running ↔ (s.chan c).state = .running := by
  unfold State.closeIfStopping State.closeBatch
  repeat' split
  all_goals simp [Raising.andThen, State.checkDrain_running]

/-- What one entry does to the requests that wait (R21, R90). One that fails the guard leaves them; one that
passes may stop its RUNNING channel, whose requests are then ignored, or leave one request for a channel that goes
on running and had none. -/
theorem State.completeEntry_stopRequests (s : State) (ch : CompletionChoice) (d : Dispatch) (e : SnapEntry) :
    let t := (s.completeEntry ch d e).1
    t.stopRequests = s.stopRequests ∨
      s.passes e = true ∧ (s.chan e.channel).state = .running ∧
        (t.stopRequests = s.stopRequests.filter (· != e.channel) ∧ (t.chan e.channel).state ≠ .running ∨
          t.stopRequests = s.stopRequests ++ [e.channel] ∧ (t.chan e.channel).state = .running ∧
            e.channel ∉ s.stopRequests) := by
  have hs (x : FifoEntry) : ((s.takeSample e.channel x).chan e.channel).state = (s.chan e.channel).state := by
    simp [State.takeSample]
  unfold State.completeEntry State.settleEntry
  dsimp only
  split
  · next hp =>
    split
    · left
      unfold State.faultClaim
      split
      · simp [State.endRun, State.discard]
      · rfl
    · unfold State.settlePassing
      dsimp only [Raising.andThen]
      rw [State.closeIfStopping_stopRequests, Ne, State.closeIfStopping_running]
      repeat' split
      · next r _ =>
        have h := (s.takeSample e.channel d.sample).handOn_stopRequests e.channel r (s.notedTaps e) ch
        rw [hs, State.takeSample_stopRequests] at h
        rcases h with ⟨h, _⟩ | ⟨h, hr, ht⟩ | ⟨h, hr, ht, hn⟩
        · exact .inl h
        · exact .inr ⟨hp, hr, .inl ⟨h, by rw [ht]; exact (nomatch ·)⟩⟩
        · exact .inr ⟨hp, hr, .inr ⟨h, ht, hn⟩⟩
      all_goals left; simp
  · left; simp

/-- With none waiting, nothing is taken. -/
theorem State.takeStopRequest_nil (s : State) (h : s.stopRequests = []) : s.takeStopRequest = (s, []) := by
  unfold State.takeStopRequest
  rw [h]

/-- A request for a channel that is not RUNNING is ignored. -/
theorem State.takeStopRequest_ignored (s : State) (c : ChanId) (rest : List ChanId)
    (h : s.stopRequests = c :: rest) (hc : (s.chan c).state ≠ .running) :
    s.takeStopRequest = ({ s with stopRequests := rest }, []) := by
  unfold State.takeStopRequest
  rw [h]
  exact if_neg hc

/-- A request for a RUNNING channel stops it and closes its batch as any stop does. -/
theorem State.takeStopRequest_running (s : State) (c : ChanId) (rest : List ChanId)
    (h : s.stopRequests = c :: rest) (hc : (s.chan c).state = .running) :
    s.takeStopRequest = (({ s with stopRequests := rest } : State).stopRequest c).closeAtStop c := by
  unfold State.takeStopRequest
  rw [h]
  exact if_pos hc

end Sys2Proof.Machine
end

