-- ==== Sys2Proof/Laws/Memory.lean ====
section
/-! SUPPORT. Coefficient memory keeps its canonical form and reads back what was written; a set listed in
ascending order keeps its order and its members. -/

namespace Sys2Proof.Machine

/-! ## The canonical form -/

theorem Memory.wf_cons (a : Nat) (w : StoredWord) (m : List (Nat × StoredWord)) :
    Memory.wf ((a, w) :: m) = true ↔
      w ≠ Config.unwritten ∧ (∀ c ∈ m, a < c.1) ∧ Memory.wf m = true := by
  simp [Memory.wf, and_assoc]

/-- Every address of `m` lies above `a`. -/
theorem memCons_wf {a : Nat} {w : StoredWord} {m : List (Nat × StoredWord)} (hm : Memory.wf m = true)
    (ha : ∀ c ∈ m, a < c.1) : Memory.wf (memCons a w m) = true := by
  unfold memCons
  split
  · exact hm
  · next h => exact (Memory.wf_cons a w m).2 ⟨h, ha, hm⟩

/-- A write lists no address but the one written and those listed before. -/
theorem memWrite_mem {m : List (Nat × StoredWord)} {a : Nat} {w : StoredWord} {c : Nat × StoredWord}
    (h : c ∈ memWrite m a w) : c = (a, w) ∨ c ∈ m := by
  induction m with
  | nil =>
    simp only [memWrite, memCons] at h
    split at h <;> simp_all
  | cons x m ih =>
    obtain ⟨b, v⟩ := x
    simp only [memWrite, memCons] at h
    split at h
    · split at h <;> simp_all
    · split at h
      · split at h
        · exact .inr (List.mem_cons_of_mem _ h)
        · rcases List.mem_cons.1 h with h | h
          · exact .inl h
          · exact .inr (List.mem_cons_of_mem _ h)
      · rcases List.mem_cons.1 h with h | h
        · exact .inr (h ▸ List.mem_cons_self)
        · rcases ih h with h | h
          · exact .inl h
          · exact .inr (List.mem_cons_of_mem _ h)

/-- A write keeps the canonical form. -/
theorem memWrite_wf {m : List (Nat × StoredWord)} (hm : Memory.wf m = true) (a : Nat) (w : StoredWord) :
    Memory.wf (memWrite m a w) = true := by
  induction m with
  | nil => exact memCons_wf rfl (by simp)
  | cons x m ih =>
    obtain ⟨b, v⟩ := x
    obtain ⟨hv, hb, hm'⟩ := (Memory.wf_cons b v m).1 hm
    simp only [memWrite]
    split
    · next h =>
      exact memCons_wf hm fun c hc => by
        rcases List.mem_cons.1 hc with rfl | hc
        · exact h
        · exact Nat.lt_trans h (hb c hc)
    · split
      · next h => exact memCons_wf hm' fun c hc => h ▸ hb c hc
      · next h1 h2 =>
        refine (Memory.wf_cons b v _).2 ⟨hv, fun c hc => ?_, ih hm'⟩
        rcases memWrite_mem hc with rfl | hc
        · show b < a; omega
        · exact hb c hc

theorem reset_coeffMem_wf : Memory.wf State.reset.coeffMem = true := rfl

/-! ## Reading after writing -/

/-- An address below every listed one reads as unwritten. -/
theorem memRead_below {m : List (Nat × StoredWord)} {a : Nat} (h : ∀ c ∈ m, a < c.1) :
    memRead m a = Config.unwritten := by
  induction m with
  | nil => rfl
  | cons x m ih =>
    obtain ⟨b, v⟩ := x
    have hb : a < b := h (b, v) List.mem_cons_self
    simp only [memRead]
    rw [if_neg (by omega), ih fun c hc => h c (List.mem_cons_of_mem _ hc)]

theorem memRead_memCons_self {m : List (Nat × StoredWord)} {a : Nat} (w : StoredWord)
    (h : ∀ c ∈ m, a < c.1) : memRead (memCons a w m) a = w := by
  unfold memCons
  split
  · next e => rw [memRead_below h, e]
  · simp [memRead]

theorem memRead_memCons_ne (m : List (Nat × StoredWord)) {a a' : Nat} (w : StoredWord) (h : a' ≠ a) :
    memRead (memCons a w m) a' = memRead m a' := by
  unfold memCons
  split
  · rfl
  · simp [memRead, h]

/-- What was written is read. -/
theorem memRead_memWrite_self {m : List (Nat × StoredWord)} (hm : Memory.wf m = true) (a : Nat)
    (w : StoredWord) : memRead (memWrite m a w) a = w := by
  induction m with
  | nil => exact memRead_memCons_self w (by simp)
  | cons x m ih =>
    obtain ⟨b, v⟩ := x
    obtain ⟨-, hb, hm'⟩ := (Memory.wf_cons b v m).1 hm
    simp only [memWrite]
    split
    · next h =>
      exact memRead_memCons_self w fun c hc => by
        rcases List.mem_cons.1 hc with rfl | hc
        · exact h
        · exact Nat.lt_trans h (hb c hc)
    · split
      · next h => exact memRead_memCons_self w fun c hc => h ▸ hb c hc
      · next h => simp only [memRead, if_neg h]; exact ih hm'

/-- Every other address reads as before. -/
theorem memRead_memWrite_ne (m : List (Nat × StoredWord)) {a a' : Nat} (w : StoredWord) (h : a' ≠ a) :
    memRead (memWrite m a w) a' = memRead m a' := by
  induction m with
  | nil => exact memRead_memCons_ne [] w h
  | cons x m ih =>
    obtain ⟨b, v⟩ := x
    simp only [memWrite]
    split
    · exact memRead_memCons_ne _ w h
    · split
      · next e => rw [memRead_memCons_ne m w h]; simp [memRead, e ▸ h]
      · simp only [memRead, ih]

/-! ## Operations over coefficient memory -/

/-- Storing a coefficient keeps the canonical form. -/
theorem State.setCoeff_wf {s : State} (h : Memory.wf s.coeffMem = true) (b : Bank) (k : Nat) (w : StoredWord) :
    Memory.wf (s.setCoeff b k w).coeffMem = true := by
  unfold State.setCoeff
  split
  · exact memWrite_wf h _ _
  · exact h

/-- Storing several keeps it. -/
theorem State.storeCoeffs_wf {s : State} (h : Memory.wf s.coeffMem = true) (b : Bank) (k : Nat)
    (xs : List Sample) : Memory.wf (s.storeCoeffs b k xs).coeffMem = true := by
  induction xs generalizing s k with
  | nil => exact h
  | cons x xs ih => exact ih (State.setCoeff_wf h b k _) (k + 1)

/-- Words found bad keep it. -/
theorem State.upsetCoeffs_wf {s : State} (h : Memory.wf s.coeffMem = true) (k : Bank)
    (upsets : List (Fin 256 × Sample)) : Memory.wf (s.upsetCoeffs k upsets).coeffMem = true := by
  unfold State.upsetCoeffs
  induction upsets generalizing s with
  | nil => exact h
  | cons u us ih =>
    simp only [List.foldl_cons]
    split
    · exact ih (State.setCoeff_wf h k _ _)
    · exact ih h

/-- A coefficient that has a place reads back as stored. -/
theorem State.coeff_setCoeff_self {s : State} (h : Memory.wf s.coeffMem = true) {b : Bank} {k a : Nat}
    (ha : b.address k = some a) (w : StoredWord) : (s.setCoeff b k w).coeff b k = w := by
  simp [State.coeff, State.setCoeff, ha, memRead_memWrite_self h]

/-- `setCoeff` changes coefficient memory alone. -/
theorem State.setCoeff_frame (s : State) (b : Bank) (k : Nat) (w : StoredWord) :
    s.setCoeff b k w = { s with coeffMem := (s.setCoeff b k w).coeffMem } := by
  unfold State.setCoeff; split <;> rfl

/-- `storeCoeffs` changes coefficient memory alone. -/
theorem State.storeCoeffs_frame (s : State) (b : Bank) (k : Nat) (xs : List Sample) :
    s.storeCoeffs b k xs = { s with coeffMem := (s.storeCoeffs b k xs).coeffMem } := by
  induction xs generalizing s k with
  | nil => rfl
  | cons x xs ih =>
    simp only [State.storeCoeffs]
    rw [ih (s.setCoeff b k ⟨x, true⟩) (k + 1), State.setCoeff_frame s b k]

/-- `upsetCoeffs` changes coefficient memory alone. -/
theorem State.upsetCoeffs_frame (s : State) (k : Bank) (us : List (Fin 256 × Sample)) :
    s.upsetCoeffs k us = { s with coeffMem := (s.upsetCoeffs k us).coeffMem } := by
  unfold State.upsetCoeffs
  induction us generalizing s with
  | nil => rfl
  | cons u us ih =>
    simp only [List.foldl_cons]
    rw [ih]
    split
    · rw [State.setCoeff_frame s]
    · rfl

/-! ## Sets kept as ascending lists -/

theorem mem_insertAsc {n : Nat} (x y : Fin n) (l : List (Fin n)) : y ∈ insertAsc x l ↔ y = x ∨ y ∈ l := by
  induction l with
  | nil => simp [insertAsc]
  | cons z l ih =>
    simp only [insertAsc]
    split
    · simp
    · split
      · next h => subst h; simp
      · simp only [List.mem_cons, ih]; tauto

/-- Entering a member keeps the order. -/
theorem insertAsc_pairwise {n : Nat} (x : Fin n) {l : List (Fin n)} (h : l.Pairwise (· < ·)) :
    (insertAsc x l).Pairwise (· < ·) := by
  induction l with
  | nil => simp [insertAsc]
  | cons z l ih =>
    obtain ⟨hz, hl⟩ := List.pairwise_cons.1 h
    simp only [insertAsc]
    split
    · next hx =>
      refine List.pairwise_cons.2 ⟨fun y hy => ?_, h⟩
      rcases List.mem_cons.1 hy with rfl | hy
      · exact hx
      · exact lt_trans hx (hz y hy)
    · split
      · exact h
      · next h1 h2 =>
        refine List.pairwise_cons.2 ⟨fun y hy => ?_, ih hl⟩
        rcases (mem_insertAsc x y l).1 hy with rfl | hy
        · exact lt_of_le_of_ne (not_lt.1 h1) (Ne.symm h2)
        · exact hz y hy

/-- Entering a new member lists it once more, and no other. -/
theorem count_insertAsc {n : Nat} (x p : Fin n) {l : List (Fin n)} (h : x ∉ l) :
    (insertAsc x l).count p = l.count p + if x = p then 1 else 0 := by
  induction l with
  | nil => simp [insertAsc, List.count_cons]
  | cons z l ih =>
    have hz : x ≠ z := fun e => h (e ▸ List.mem_cons_self)
    have hl : x ∉ l := fun e => h (List.mem_cons_of_mem _ e)
    simp only [insertAsc]
    split
    · rw [List.count_cons]; simp
    · simp only [List.count_cons, ih hl]; omega

end Sys2Proof.Machine
end

