-- ==== Sys2Proof/Laws/PerInstr.lean ====
section
/-! SUPPORT. A statement about every command as syntax, command by command: what well-formedness says of the
frame that a host command's row takes. -/

namespace Sys2Proof.Laws.TakenFrame

open Sys2Proof.Machine

/-- The frame that a well-formed command takes is no ACK, and its bytes on the line are at most 254: SYNC, LEN,
at most 250 bytes of content and the CRC. -/
def Statement (i : Instr) : Prop :=
  i.wf = true → ∀ f, takenFrame i = some f → f.type ≠ FrameType.ack ∧ f.bytes.length ≤ 254

/-- The bytes of a frame number six more than its payload. -/
theorem bytes_length (f : Frame) : f.bytes.length = f.payload.length + 6 := by
  simp [Frame.bytes, Frame.body, halfBytes]

/-- A row of a host command, whose code is not that of an ACK. -/
theorem of_code (c : Command) (tag : Byte) (p : List Byte) (h : payloadFits p = true) (f : Frame)
    (hf : some (⟨c.code, tag, p⟩ : Frame) = some f) : f.type ≠ FrameType.ack ∧ f.bytes.length ≤ 254 := by
  obtain rfl := Option.some.inj hf
  have := of_decide_eq_true h
  have code : ∀ c : Command, c.code ≠ FrameType.ack := by intro c; cases c <;> decide
  exact ⟨code c, by rw [bytes_length]; dsimp only; omega⟩

theorem powerReset (hrxSpace : Bool) : Statement (.powerReset hrxSpace) :=
  fun _ _ hf => nomatch hf
theorem pinReset (hrxSpace : Bool) : Statement (.pinReset hrxSpace) :=
  fun _ _ hf => nomatch hf
theorem linkReset : Statement (.linkReset) :=
  fun _ _ hf => nomatch hf
theorem gapTimerExpiry : Statement (.gapTimerExpiry) :=
  fun _ _ hf => nomatch hf
theorem byteArrival (value : Byte) : Statement (.byteArrival value) :=
  fun _ _ hf => nomatch hf
theorem byteFramingError : Statement (.byteFramingError) :=
  fun _ _ hf => nomatch hf
theorem wordArrival (lane : LaneId) (word : Sample) (marker : Bool) : Statement (.wordArrival lane word marker) :=
  fun _ _ hf => nomatch hf
theorem dispatchStart : Statement (.dispatchStart) :=
  fun _ _ hf => nomatch hf
theorem damageMarking (channel : ChanId) (k : Fin 256) : Statement (.damageMarking channel k) :=
  fun _ _ hf => nomatch hf
theorem dispatchCompletion (choice : CompletionChoice) : Statement (.dispatchCompletion choice) :=
  fun _ _ hf => nomatch hf
theorem ackTimerExpiry (channel : ChanId) (slot : BatchId) : Statement (.ackTimerExpiry channel slot) :=
  fun _ _ hf => nomatch hf
theorem transmissionStart : Statement (.transmissionStart) :=
  fun _ _ hf => nomatch hf
theorem sendCompletion : Statement (.sendCompletion) :=
  fun _ _ hf => nomatch hf
theorem ping (tag : Byte) (payload : List Byte) : Statement (.ping tag payload) :=
  fun h f hf => of_code .ping _ _ h f hf
theorem deviceReset (tag : Byte) (payload : List Byte) : Statement (.deviceReset tag payload) :=
  fun h f hf => of_code .deviceReset _ _ h f hf
theorem linkSet (tag : Byte) (payload : List Byte) : Statement (.linkSet tag payload) :=
  fun h f hf => of_code .linkSet _ _ h f hf
theorem deviceQuery (tag : Byte) (payload : List Byte) : Statement (.deviceQuery tag payload) :=
  fun h f hf => of_code .deviceQuery _ _ h f hf
theorem bankOpen (tag : Byte) (payload : List Byte) : Statement (.bankOpen tag payload) :=
  fun h f hf => of_code .bankOpen _ _ h f hf
theorem bankData (tag : Byte) (payload : List Byte) : Statement (.bankData tag payload) :=
  fun h f hf => of_code .bankData _ _ h f hf
theorem bankSeal (tag : Byte) (payload : List Byte) (upsets : List (Fin 256 × Sample)) : Statement (.bankSeal tag payload upsets) :=
  fun h f hf => of_code .bankSeal _ _ h f hf
theorem bankFree (tag : Byte) (payload : List Byte) : Statement (.bankFree tag payload) :=
  fun h f hf => of_code .bankFree _ _ h f hf
theorem bankQuery (tag : Byte) (payload : List Byte) : Statement (.bankQuery tag payload) :=
  fun h f hf => of_code .bankQuery _ _ h f hf
theorem laneSet (tag : Byte) (payload : List Byte) : Statement (.laneSet tag payload) :=
  fun h f hf => of_code .laneSet _ _ h f hf
theorem laneQuery (tag : Byte) (payload : List Byte) : Statement (.laneQuery tag payload) :=
  fun h f hf => of_code .laneQuery _ _ h f hf
theorem chanConfig (tag : Byte) (payload : List Byte) : Statement (.chanConfig tag payload) :=
  fun h f hf => of_code .chanConfig _ _ h f hf
theorem chanBind (tag : Byte) (payload : List Byte) : Statement (.chanBind tag payload) :=
  fun h f hf => of_code .chanBind _ _ h f hf
theorem chanStart (tag : Byte) (payload : List Byte) : Statement (.chanStart tag payload) :=
  fun h f hf => of_code .chanStart _ _ h f hf
theorem chanStop (tag : Byte) (payload : List Byte) : Statement (.chanStop tag payload) :=
  fun h f hf => of_code .chanStop _ _ h f hf
theorem chanAbort (tag : Byte) (payload : List Byte) : Statement (.chanAbort tag payload) :=
  fun h f hf => of_code .chanAbort _ _ h f hf
theorem chanClear (tag : Byte) (payload : List Byte) : Statement (.chanClear tag payload) :=
  fun h f hf => of_code .chanClear _ _ h f hf
theorem chanSwap (tag : Byte) (payload : List Byte) : Statement (.chanSwap tag payload) :=
  fun h f hf => of_code .chanSwap _ _ h f hf
theorem chanQuery (tag : Byte) (payload : List Byte) : Statement (.chanQuery tag payload) :=
  fun h f hf => of_code .chanQuery _ _ h f hf
theorem chanRotate (tag : Byte) (payload : List Byte) : Statement (.chanRotate tag payload) :=
  fun h f hf => of_code .chanRotate _ _ h f hf
theorem watchSet (tag : Byte) (payload : List Byte) : Statement (.watchSet tag payload) :=
  fun h f hf => of_code .watchSet _ _ h f hf
theorem watchOff (tag : Byte) (payload : List Byte) : Statement (.watchOff tag payload) :=
  fun h f hf => of_code .watchOff _ _ h f hf
theorem watchQuery (tag : Byte) (payload : List Byte) : Statement (.watchQuery tag payload) :=
  fun h f hf => of_code .watchQuery _ _ h f hf
theorem badType (type tag : Byte) (payload : List Byte) : Statement (.badType type tag payload) :=
  fun h f hf => by
    obtain rfl := Option.some.inj hf
    simp only [Instr.wf, isBadType, payloadFits, Bool.and_eq_true, bne_iff_ne, decide_eq_true_eq] at h
    exact ⟨h.1.2, by rw [bytes_length]; dsimp only; omega⟩
theorem hrxChangesToSpace : Statement (.hrxChangesToSpace) :=
  fun _ _ hf => nomatch hf
theorem hrxChangesToMark : Statement (.hrxChangesToMark) :=
  fun _ _ hf => nomatch hf

end Sys2Proof.Laws.TakenFrame
end

