-- ==== Sys2Proof/Tests/Slice0.lean ====
section
/-! SUPPORT. The model's own tests: the well-formedness smoke, the manual's worked numbers, a small test for
each command, and for each obligation with hypotheses a witness that something meets them. -/

namespace Sys2Proof.Tests.Slice0

open Sys2Proof Sys2Proof.Machine

-- One theorem after another: a kernel decision that waits in a thread of its own keeps that thread's stack.
set_option Elab.async false

/-! ## Helpers -/

/-- The state a command leaves. -/
def after (i : Instr) (s : State) : State :=
  match exec i s with
  | .next t => t
  | .fault _ => s
  | .refused _ => s

/-- The status and the body of the newest reply. -/
def reply (s : State) : Option (Status × List Byte) := s.link.replies.getLast?.map fun r => (r.status, r.body)

/-- One frame at the head of the inbound queue. -/
def inbox (s : State) (f : Frame) : State := s.modLink fun k => { k with inbound := [f] }

theorem inbox_takes (s : State) (f : Frame) (room : s.link.replies.length < 8)
    (running : s.link.resetPending = false) : (inbox s f).Takes f := ⟨rfl, room, running⟩

/-- A batch with `n` outputs. -/
def batch (state : SlotState) (n : Nat) (seq : Byte) (timer : Timer) : BatchSlot :=
  { BatchSlot.free with state := state, outputs := List.replicate n 7, sequence := seq, timer := timer }

/-- A part at work. Channel 0 runs on lane 0, slot 0, with bank 0 (the three taps of section 4.8) and a swap to
bank 1 staged; its dispatch is in flight, and its batches are INFLIGHT (one timed, one to be resent), READY and
FILLING. Channel 1 is STOPPING by command with a FINAL batch READY. Bank 2 is OPEN. -/
def working : State where
  link :=
    { Link.reset with
      assembler := .length, gapTimer := .running 5, inbound := [⟨0x01, 9, [1, 2]⟩],
      replies := [⟨8, 0x03, .ok, [2, 7], 0⟩] }
  channels :=
    ((Vector.replicate 16 Channel.reset).set 0
      { Channel.reset with
        state := .running, active := some 0, staged := some 1, session := 1, fill := 5
        opSlot := .pending .swap 0x40 }).set 1
      { Channel.reset with
        state := .stopping, active := some 0, session := 2, stopCause := some .command
        opSlot := .pending .stop 0x31 }
  coeffMem := [(0, ⟨0x4000, true⟩), (1, ⟨0x2000, true⟩), (2, ⟨0xE000, true⟩)]
  pool := (List.finRange 64).drop 4
  banks :=
    (((Vector.replicate 32 Bank.free).set 0 ⟨.sealed, 3, [0], 3, 2, true⟩).set 1
      ⟨.sealed, 64, [1], 64, 1, false⟩).set 2 ⟨.opened, 65, [2, 3], 63, 0, false⟩
  lanes :=
    (Vector.replicate 4 Lane.reset).set 0
      ⟨.locked, 2, 1, [⟨0, 0x0100, false⟩], [1], true, 9, 0, 1, .empty⟩
  engine :=
    ⟨0, some ⟨0, ⟨0, 0x1000, false⟩, [⟨0, 1, true, some 0, none, false, 5⟩], []⟩,
      (Vector.replicate 16 []).set 0
        [⟨0x2000, true⟩, ⟨0xF000, true⟩, ⟨1, true⟩, ⟨2, true⟩, ⟨3, true⟩]⟩
  watches := (Vector.replicate 8 Watch.reset).set 3 ⟨.clear, 0, .outside, -1000, 1000, 2, 3, .notify, 1⟩
  stopRequests := [2]
  delivery :=
    ((Vector.replicate 16 ChanDelivery.reset).set 0
      ⟨(((Vector.replicate 4 BatchSlot.free).set 0 (batch .inflight 8 0 (.running 50))).set 1
          (batch .inflight 8 1 .stopped) |>.set 2 (batch .ready 8 2 .stopped)).set 3
          (batch .filling 7 0 .stopped), 3, 0, [2], [0, 1], false⟩).set 1
      ⟨(Vector.replicate 4 BatchSlot.free).set 0
          { batch .ready 3 6 .stopped with flags := ⟨true, false, false, false, false⟩ },
        7, 0, [0], [], true⟩
  resend := [(0, 1)]
  arbiter := { Arbiter.reset with transmission := some ⟨.greeting, Link.reset.hello⟩, notices := [.staleAck 3 7] }
  pending := [.sendCompletion]

/-- The part at work with one frame waiting. -/
def asked (f : Frame) : State := inbox working f

theorem asked_takes (f : Frame) : (asked f).Takes f := inbox_takes working f (by decide) rfl

/-- The reset part with one frame waiting. -/
def fresh (f : Frame) : State := inbox .reset f

theorem fresh_takes (f : Frame) : (fresh f).Takes f := inbox_takes .reset f (by decide) rfl

/-- A frame waiting at a part of which one bank record is given. -/
def withBank (k : Bank) (f : Frame) : State := inbox (State.reset.modBank 0 fun _ => k) f

/-- A frame waiting at a part of which channel 0 is given. -/
def withChan (ch : Channel) (f : Frame) : State :=
  inbox (({ State.reset with channels := State.reset.channels.set 0 ch }.modBank 0 fun _ =>
    ⟨.sealed, 3, [0], 3, 1, false⟩).modBank 1 fun _ => ⟨.sealed, 64, [1], 64, 0, false⟩) f

/-- An assembler that waits for the last byte of a frame. -/
def assembling (s : State) (f : Frame) : State :=
  s.modLink fun k =>
    { k with
      assembler := .body (natByte (f.payload.length + 2)) (f.bytes.drop 2).dropLast, gapTimer := .running 5 }

/-- The last byte of a frame. -/
def lastByte (f : Frame) : Byte := f.bytes.getLastD 0

/-- A frame that is being sent. -/
def sending (s : State) (source : Source) : State := s.transmit source ⟨0x83, 0, [7, 2]⟩

/-! ## Well-formedness: an ill-formed term for each check -/

theorem test_wf_payloadTooLong : (Instr.ping 0 (List.replicate 249 0)).wf = false := by decide +kernel
theorem test_wf_payloadFits : (Instr.bankData 0 (List.replicate 248 0)).wf = true := by decide +kernel
theorem test_wf_ownSampleHasNoMark : (Instr.dispatchCompletion ⟨[], [], [], [(0, 0)]⟩).wf = false := by decide
theorem test_wf_typeIsACommand : (Instr.badType 0x42 0 []).wf = false := by decide
theorem test_wf_typeIsAck : (Instr.badType 0x50 0 []).wf = false := by decide
theorem test_wf_badTypePayload : (Instr.badType 0x7F 0 (List.replicate 249 0)).wf = false := by decide +kernel

/-! ## The manual's numbers -/

/-- R34: the CRC-16 of the nine characters 1 to 9. -/
theorem test_crc : crc16 [0x31, 0x32, 0x33, 0x34, 0x35, 0x36, 0x37, 0x38, 0x39] = 0x29B1 := by
  decide +kernel

/-- The accumulator and the output of section 4.8 for `n` terms. -/
def example48 (fraction : Bool) (policy : RangePolicy) (shift n : Nat) : Option (Int × (Output × Bool)) :=
  let g : ChanConfig := { ChanConfig.default with fraction := fraction, policy := policy }
  match accumulate g (fun k => [⟨0x4000, true⟩, ⟨0x2000, true⟩, ⟨0xE000, true⟩].getD k Config.unwritten)
    (fun k => [⟨0x1000, true⟩, ⟨0x2000, true⟩, ⟨0xF000, true⟩].getD k Config.unwritten) n 0 (0, false) with
  | .ok a => some (a.1, clip policy (scale shift a.1))
  | .error _ => none

theorem test_outputByHand :
    example48 false .sat 15 3 = some (167772160, 5120, false) ∧
    example48 true .sat 15 3 = some (335544320, 10240, false) ∧
    example48 true .sat 16 3 = some (335544320, 5120, false) ∧
    example48 false .sat 0 3 = some (167772160, 8388607, true) ∧
    example48 false .wrap 0 3 = some (167772160, 0, true) ∧
    example48 false .sat 15 2 = some (134217728, 4096, false) := by decide +kernel

theorem test_rounding : scale 1 (-3) = -1 ∧ scale 1 3 = 2 := by decide

/-- The bounds of section 4.8: the 128th term of 2^30. -/
theorem test_guard :
    addTerm .sat (2 ^ 37 - 2 ^ 30, false) (2 ^ 30) = (2 ^ 37 - 1, true) ∧
    addTerm .wrap (2 ^ 37 - 2 ^ 30, false) (2 ^ 30) = (-2 ^ 37, true) := by decide +kernel

/-- Section 5.8, indexes 10 to 21. -/
theorem test_watchExample :
    ([500, 1200, 800, -1500, 2000, 3000, 0, 999, 1001, -1000, 1000, 5].foldl
      (fun (a : Watch × List (Nat × Verdict)) v =>
        let r := a.1.evaluate v
        (r.1, a.2 ++ [(r.1.run, r.2)]))
      (⟨.clear, 2, .outside, -1000, 1000, 2, 3, .notify, 0⟩, [])).2 =
    [(0, .nothing), (1, .nothing), (0, .nothing), (1, .nothing), (0, .trip), (0, .nothing), (1, .nothing),
     (2, .nothing), (0, .nothing), (1, .nothing), (2, .nothing), (0, .clear)] := by decide +kernel

/-- Section 2.10: banks 5 and 2 are opened, bank 5 is freed, and bank 9 takes pages 0, 1 and 6. -/
theorem test_allocation :
    let s := (((State.reset.openBank 5 100).openBank 2 256).freeBank 5).openBank 9 150
    (s.bank 2).pages = [2, 3, 4, 5] ∧ (s.bank 9).pages = [0, 1, 6] ∧ s.pool.length = 57 := by decide +kernel

/-- The frame of a PING on the line. -/
theorem test_frameBytes : (Frame.mk 0x01 5 [0xAA]).bytes.take 5 = [0xA7, 3, 0x01, 5, 0xAA] := by decide

/-- Section 7.7: the missed count after the link reset. -/
theorem test_noticeLost :
    let s := (sending { State.reset with
      link := { Link.reset with detector := .space }, arbiter := { Arbiter.reset with missed := 1 } } .notice)
    (after .linkReset s).arbiter.missed = 4 := by decide +kernel

/-! ## The commands, one by one -/

theorem test_powerReset :
    let t := after (.powerReset true) working
    t.link = { Link.reset with detector := .space } ∧ t.coeffMem = working.coeffMem ∧
      t.channels = State.reset.channels ∧ t.pending = working.pending := by decide +kernel

theorem test_pinReset :
    let t := after (.pinReset false) working
    t.link = { Link.reset with cause := .pin } ∧ t.engine.rings = working.engine.rings ∧
      t.engine.dispatch = none ∧ t.arbiter = Arbiter.reset := by decide +kernel

theorem test_linkReset :
    let t := after .linkReset (working.modLink fun k => { k with detector := .space })
    t.link.replies = [] ∧ t.link.inbound = [] ∧ t.link.cause = .link ∧ t.link.detector = .broken ∧
      t.arbiter.transmission = none ∧ t.delivery = working.delivery := by decide +kernel

theorem test_gapTimerExpiry :
    let t := after .gapTimerExpiry working
    t.link.assembler = .seek ∧ t.link.counters.truncated = 1 ∧ t.link.rxDiscards = 1 := by decide +kernel

theorem test_byteArrival_frame :
    let f : Frame := ⟨0x01, 5, [0xAA]⟩
    (after (.byteArrival (lastByte f)) (assembling .reset f)).link.inbound = [f] := by decide +kernel

theorem test_byteArrival_ack :
    let t := after (.byteArrival (lastByte ⟨0x50, 0, [0, 1, 0, 0]⟩)) (assembling working ⟨0x50, 0, [0, 1, 0, 0]⟩)
    (t.deliv 0).count .free = 2 ∧ (t.deliv 0).inflightOrder = [] ∧ t.resend = [] := by decide +kernel

theorem test_byteFramingError :
    let t := after .byteFramingError working
    t.link.receiver = .waitMark ∧ t.link.assembler = .seek ∧ t.link.counters.framing = 1 ∧
      t.link.rxDiscards = 1 := by decide +kernel

/-- Section 3.9, w10: an early marker. -/
theorem test_wordArrival_misframe :
    let t := after (.wordArrival 0 5 true) working
    (t.lane 0).state = .check ∧ (t.lane 0).position = 1 ∧ (t.lane 0).gapPending = [0, 1] ∧
      t.arbiter.notices = [.staleAck 3 7, .laneLost 0 .earlyMarker] := by decide +kernel

/-- A word of slot 0 that channel 0 needs. -/
theorem test_wordArrival_admitted :
    let t := after (.wordArrival 0 5 true) (working.modLane 0 fun r => { r with position := 0 })
    (t.lane 0).fifo = [⟨0, 0x0100, false⟩, ⟨0, 5, false⟩] ∧ (t.lane 0).position = 1 := by decide +kernel

theorem test_dispatchStart :
    let t := after .dispatchStart (working.setDispatch none)
    t.engine.dispatch = some ⟨0, ⟨0, 0x0100, false⟩, [⟨0, 1, true, some 0, none, false, 5⟩], []⟩ ∧
      (t.lane 0).fifo = [] ∧ (t.lane 0).latch = false ∧ (t.bank 0).hold = true := by decide +kernel

theorem test_damageMarking :
    let t := after (.damageMarking 0 2) working
    (t.bank 0).state = .damaged ∧ memRead t.coeffMem 2 = ⟨0xE000, false⟩ ∧
      t.engine.dispatch.map (·.snapshot.map (·.fault)) = some [some (.bank 0)] := by decide +kernel

/-- The output of section 4.8 fills the batch, trips watch 3 (its second output outside) and ends the swap. -/
theorem test_dispatchCompletion :
    let t := after (.dispatchCompletion ⟨[], [], [], []⟩) working
    ((t.deliv 0).slot 3).outputs.getLast? = some 5120 ∧ ((t.deliv 0).slot 3).state = .ready ∧
      (t.deliv 0).readyOrder = [2, 3] ∧ (t.watch 3).state = .tripped ∧ (t.chan 0).active = some 1 ∧
      (t.chan 0).opSlot = .unreported .swap 0x40 .ok ∧ (t.bank 0).refs = 1 ∧ (t.bank 0).hold = false ∧
      t.arbiter.notices = [.staleAck 3 7, .watchTrip 3 0 0 5120] ∧ (t.chan 0).outIndex = 1 := by
  decide +kernel

/-- R21: a stop request of watch 3 that the completion leaves waiting; the swap is made, the next dispatch may
start, and the empty queue then takes the requests in their order: channel 2 is not RUNNING, channel 0 stops. -/
theorem test_lateWatchStop :
    let s := working.modWatch 3 fun w => { w with action := .notifyStop }
    let t := { after (.dispatchCompletion ⟨[], [], [3], []⟩) s with pending := [.dispatchStart] }
    let u := { after .dispatchStart t with pending := [] }
    let v := u.takeStopRequest.settle
    let x := v.takeStopRequest.settle
    (t.chan 0).state = .running ∧ (t.chan 0).active = some 1 ∧ t.stopRequests = [2, 0] ∧
      u.engine.dispatch.isSome = true ∧ v.stopRequests = [0] ∧ v.chan 2 = u.chan 2 ∧
      (x.chan 0).state = .stopping ∧ (x.chan 0).stopCause = some .watch ∧ (x.deliv 0).drainWatch = false ∧
      x.stopRequests = [] := by decide +kernel

/-- R90: of the requests of two watches on one output, one taken and one left waiting, the second finds the channel
STOPPING; so does one made by a STOPPING channel's output, and so do those that wait when a CHAN_STOP is taken. Of
two left waiting, one is kept. -/
theorem test_requestsIgnored :
    let two := (working.modWatch 3 fun w => { w with action := .notifyStop }).modWatch 4 fun _ =>
      { working.watch 3 with action := .notifyStop }
    let stopping := two.modChan 0 fun ch =>
      { ch with state := .stopping, staged := none, opSlot := .pending .stop 0x40, stopCause := some .command }
    let asked := inbox ({ working with stopRequests := [2, 0] }.modChan 0 fun ch =>
      { ch with staged := none, opSlot := .none }) ⟨0x33, 1, [0, 0]⟩
    let left (late : List WatchId) (s : State) := (after (.dispatchCompletion ⟨[], [], late, []⟩) s).stopRequests
    ((two.evaluate 0 0 5120).stops = [3, 4]) ∧ left [4] two = [2] ∧ left [3, 4] two = [2, 0] ∧
      left [3, 4] stopping = [2] ∧ (after (.chanStop 1 [0, 0]) asked).stopRequests = [2] := by decide +kernel

/-- R14: the entry of channel 0 is struck by an abort, and the channel is started and stopped again before the
completion, which makes the close; no batch is left, so the drain completes at once. -/
theorem test_dispatchCompletion_struckStop :
    let s := working.modChan 0 fun ch => { ch with staged := none, opSlot := .none }
    let a := after (.chanAbort 1 [0, 0]) (inbox s ⟨0x34, 1, [0, 0]⟩)
    let b := after (.chanStart 2 [0, 0]) (inbox a ⟨0x32, 2, [0, 0]⟩)
    let t := after (.chanStop 3 [0, 0]) (inbox b ⟨0x33, 3, [0, 0]⟩)
    let u := after (.dispatchCompletion ⟨[], [], [], []⟩) t
    (t.chan 0).state = .stopping ∧ (t.deliv 0).drainWatch = false ∧ (u.chan 0).state = .ready ∧
      (u.chan 0).opSlot = .unreported .stop 3 .ok ∧ (u.deliv 0).drainWatch = false := by decide +kernel

theorem test_dispatchCompletion_badHistory :
    let t := after (.dispatchCompletion ⟨[], [], [], [(0, 1)]⟩) working
    (t.chan 0).state = .faulted ∧ (t.deliv 0).count .free = 4 ∧ (t.bank 1).refs = 0 ∧
      t.arbiter.notices = [.staleAck 3 7, .memoryFault 0 .history] := by decide +kernel

theorem test_ackTimerExpiry :
    let t := after (.ackTimerExpiry 0 0) working
    t.resend = [(0, 1), (0, 0)] ∧ ((t.deliv 0).slot 0).retry = 1 ∧ ((t.deliv 0).slot 0).timer = .stopped := by
  decide +kernel

theorem test_ackTimerExpiry_drop :
    let t := after (.ackTimerExpiry 0 0) (working.modDeliv 0 fun d => d.modSlot 0 fun t =>
      { t with retry := 3, lost := 4 })
    (t.deliv 0).count .free = 1 ∧ (t.chan 0).counters.batchesDropped = 1 ∧
      t.arbiter.notices = [.staleAck 3 7, .deliveryLost 0 0 12] := by decide +kernel

/-- R117: replies go before notices and batches, once the greeting has been sent. -/
theorem test_transmissionStart :
    let s := (working.modLink fun k => { k with greeting := false }).freeTransmitter
    (after .transmissionStart s).arbiter.transmission =
      some ⟨.reply, ⟨0x81, 8, [0x03, 0, 0, 2, 7]⟩⟩ := by decide +kernel

theorem test_transmissionStart_resend :
    let s := ((working.modLink fun k => { k with greeting := false, replies := [] }).modArb fun a =>
      { a with notices := [] }).freeTransmitter
    let t := after .transmissionStart s
    t.arbiter.transmission.map (·.source) = some (.resend 0 1) ∧ t.resend = [] ∧
      (t.chan 0).counters.retransmissions = 1 := by decide +kernel

theorem test_sendCompletion :
    let t := after .sendCompletion working
    t.link.greeting = false ∧ t.arbiter.transmission = none ∧ t.link.replies = working.link.replies := by
  decide +kernel

/-- R141: a LINK_SET reply sent while a frame is in assembly. -/
theorem test_sendCompletion_linkSet :
    let t := after .sendCompletion (sending working .reply)
    t.link.rate = 2 ∧ t.link.gapTimeout = 7 ∧ t.link.assembler = .seek ∧ t.link.counters.truncated = 1 ∧
      t.link.replies = [] := by decide +kernel

theorem test_ping : reply (after (.ping 5 [1, 2, 3]) (asked ⟨0x01, 5, [1, 2, 3]⟩)) = some (.ok, [1, 2, 3]) := by
  decide +kernel

theorem test_deviceReset :
    let t := after (.deviceReset 5 [0, 0]) (asked ⟨0x02, 5, [0, 0]⟩)
    t.link.resetPending = true ∧ reply t = some (.ok, []) ∧ after (.ping 9 []) (inbox t ⟨1, 9, []⟩) =
      inbox t ⟨1, 9, []⟩ := by decide +kernel

theorem test_linkSet :
    reply (after (.linkSet 5 [5, 50]) (asked ⟨0x03, 5, [5, 50]⟩)) = some (.ok, [5, 50]) ∧
    reply (after (.linkSet 5 [5, 51]) (asked ⟨0x03, 5, [5, 51]⟩)) = some (.badArg, [0, 0]) := by decide +kernel

theorem test_deviceQuery :
    reply (after (.deviceQuery 5 [0, 1]) (asked ⟨0x04, 5, [0, 1]⟩)) =
      some (.ok, [0, 0, 5, 0, 0, 0, 0, 0, 0, 0, 0, 0, 0, 0, 60, 0]) := by decide +kernel

theorem test_bankOpen :
    reply (after (.bankOpen 5 [7, 0, 100, 0]) (asked ⟨0x10, 5, [7, 0, 100, 0]⟩)) =
      some (.ok, [58, 2, 4, 5, 0xFF, 0xFF]) := by decide +kernel

/-- Coefficients 63 and 64 of a bank lie in different pages. -/
theorem test_bankData :
    let p : List Byte := [2, 0, 63, 0, 0x34, 0x12, 0xCD, 0xAB]
    let t := after (.bankData 5 p) (asked ⟨0x11, 5, p⟩)
    reply t = some (.ok, [65, 0]) ∧ memRead t.coeffMem (2 * 64 + 63) = ⟨0x1234, true⟩ ∧
      memRead t.coeffMem (3 * 64) = ⟨0xABCD, true⟩ := by decide +kernel

/-- The checksum of one coefficient 0x0201 is the CRC-16 of the bytes 1, 2. -/
theorem test_bankSeal :
    let s (m : List (Nat × StoredWord)) (p : List Byte) : State :=
      { withBank ⟨.opened, 1, [0], 1, 0, false⟩ ⟨0x12, 5, p⟩ with coeffMem := m }
    let good := 0 :: 0 :: halfBytes (crc16 [1, 2])
    ((after (.bankSeal 5 good []) (s [(0, ⟨0x0201, true⟩)] good)).bank 0).state = .sealed ∧
    ((after (.bankSeal 5 good [(0, 0x0201)]) (s [(0, ⟨0x0201, true⟩)] good)).bank 0).loaded = 0 := by
  decide +kernel

theorem test_bankFree :
    let t := after (.bankFree 5 [2, 0]) (asked ⟨0x13, 5, [2, 0]⟩)
    t.bank 2 = .free ∧ t.pool.take 3 = [2, 3, 4] ∧ t.pool.length = 62 ∧
    reply (after (.bankFree 5 [0, 0]) (asked ⟨0x13, 5, [0, 0]⟩)) = some (.inUse, []) := by decide +kernel

theorem test_bankQuery :
    reply (after (.bankQuery 5 [2, 0]) (asked ⟨0x14, 5, [2, 0]⟩)) =
      some (.ok, [1, 65, 0, 63, 0, 0, 0, 2, 2, 3, 0xFF, 0xFF, 60]) := by decide +kernel

theorem test_laneSet :
    let t := after (.laneSet 5 [2, 1, 3, 0]) (asked ⟨0x20, 5, [2, 1, 3, 0]⟩)
    (t.lane 2).state = .hunt ∧ (t.lane 2).slotCount = 3 ∧
    reply (after (.laneSet 5 [0, 1, 3, 0]) (asked ⟨0x20, 5, [0, 1, 3, 0]⟩)) = some (.wrongState, []) := by
  decide +kernel

theorem test_laneQuery :
    let t := after (.laneQuery 5 [0, 1]) (asked ⟨0x21, 5, [0, 1]⟩)
    reply t = some (.ok, [3, 1, 2, 1, 2, 1, 9, 0, 0, 0, 1, 0]) ∧ (t.lane 0).received = 0 := by decide +kernel

theorem test_chanConfig :
    let p : List Byte := [5, 2, 1, 4, 16, 1, 1, 4, 3, 0, 1, 7, 0xD0, 7]
    let t := after (.chanConfig 5 p) (asked ⟨0x30, 5, p⟩)
    (t.chan 5).config = ⟨2, 1, 4, 16, true, .wrap, 4, 3, false, 1, 2000, 7⟩ ∧ t.arbiter.list 1 = [5] := by
  decide +kernel

theorem test_chanBind :
    let t := after (.chanBind 5 [5, 1]) (asked ⟨0x31, 5, [5, 1]⟩)
    (t.chan 5).state = .ready ∧ (t.chan 5).active = some 1 ∧ (t.bank 1).refs = 2 ∧
    reply (after (.chanBind 5 [5, 2]) (asked ⟨0x31, 5, [5, 2]⟩)) = some (.wrongState, []) := by decide +kernel

theorem test_chanStart :
    let s := (asked ⟨0x32, 5, [4, 0]⟩).modChan 4 fun ch => { ch with state := .ready, active := some 0 }
    let t := after (.chanStart 5 [4, 0]) s
    (t.chan 4).state = .running ∧ (t.chan 4).session = 1 ∧ reply t = some (.ok, []) := by decide +kernel

/-- R14: channel 0 stands in the dispatch in flight, so its close waits. A swap is pending, so the slot must be
free of it first. -/
theorem test_chanStop :
    let s := (asked ⟨0x33, 5, [0, 0]⟩)
    reply (after (.chanStop 5 [0, 0]) s) = some (.busy, []) ∧
    let u := s.modChan 0 fun ch => { ch with staged := none, opSlot := .none }
    let t := after (.chanStop 5 [0, 0]) u
    (t.chan 0).state = .stopping ∧ (t.deliv 0).count .filling = 1 ∧
    let v := after (.chanStop 5 [0, 0]) (u.setDispatch none)
    (v.deliv 0).count .filling = 0 ∧ (v.deliv 0).drainWatch = true := by decide +kernel

theorem test_chanAbort :
    let t := after (.chanAbort 5 [0, 0]) (asked ⟨0x34, 5, [0, 0]⟩)
    (t.chan 0).state = .ready ∧ (t.chan 0).opSlot = .unreported .swap 0x40 .aborted ∧ (t.bank 1).refs = 0 ∧
      t.resend = [] ∧ t.engine.dispatch.map (·.snapshot.map (·.struck)) = some [true] := by decide +kernel

theorem test_chanClear :
    let s := (asked ⟨0x35, 5, [0, 0]⟩).modChan 0 fun ch => { ch with state := .faulted, staged := none }
    let t := after (.chanClear 5 [0, 0]) s
    (t.chan 0).state = .idle ∧ (t.chan 0).active = none ∧ (t.bank 0).refs = 1 ∧ (t.chan 0).session = 1 := by
  decide +kernel

theorem test_chanSwap :
    let s := (asked ⟨0x36, 5, [0, 1]⟩).modChan 0 fun ch => { ch with staged := none, opSlot := .none }
    let t := after (.chanSwap 5 [0, 1]) s
    (t.chan 0).staged = some 1 ∧ (t.chan 0).opSlot = .pending .swap 5 ∧ (t.bank 1).refs = 2 ∧
      reply t = some (.accepted, []) := by decide +kernel

theorem test_chanQuery :
    (reply (after (.chanQuery 5 [0, 0]) (asked ⟨0x37, 5, [0, 0]⟩))).map (fun r => (r.2.take 16, r.2.length)) =
      some ([2, 0, 0, 0, 1, 15, 0, 0, 8, 2, 0, 3, 3, 50, 0, 0], 49) := by decide +kernel

theorem test_chanRotate :
    ((after (.chanRotate 5 [3, 7]) (asked ⟨0x38, 5, [3, 7]⟩)).arbiter.list 3).take 3 = [7, 0, 1] := by
  decide +kernel

theorem test_watchSet :
    let p : List Byte := [4, 2, 2, 1, 0x18, 0xFC, 0xFF, 0xFF, 0xE8, 3, 0, 0, 2, 3]
    (after (.watchSet 5 p) (asked ⟨0x40, 5, p⟩)).watch 4 =
      ⟨.clear, 2, .outside, -1000, 1000, 2, 3, .notifyStop, 0⟩ := by decide +kernel

theorem test_watchOff :
    ((after (.watchOff 5 [3, 0]) (asked ⟨0x41, 5, [3, 0]⟩)).watch 3) =
      ⟨.off, 0, .outside, -1000, 1000, 2, 3, .notify, 0⟩ := by decide +kernel

theorem test_watchQuery :
    reply (after (.watchQuery 5 [3, 0]) (asked ⟨0x42, 5, [3, 0]⟩)) =
      some (.ok, [1, 0, 2, 0, 0x18, 0xFC, 0xFF, 0xFF, 0xE8, 3, 0, 0, 2, 3, 1]) := by decide +kernel

theorem test_badType : reply (after (.badType 0x80 5 [1]) (asked ⟨0x80, 5, [1]⟩)) = some (.badType, []) := by
  decide +kernel

theorem test_hrxChanges :
    (after .hrxChangesToSpace working).link.detector = .space ∧
    (after .hrxChangesToMark (after .hrxChangesToSpace working)).link.detector = .idle := by decide +kernel

/-- R128: a line that a reset finds at space begins no character; its next change from mark does. -/
theorem test_lineAtSpace :
    let s := after (.powerReset true) .reset
    (List.replicate 10 false).foldl State.hrxBit s = s ∧
      ([true, false].foldl State.hrxBit s).link.rxChar = some [] := by decide +kernel

/-- R46: a marker that goes high after eight bits cuts the word there. -/
theorem test_markerCutsTheWord :
    let s := (List.replicate 8 true).foldl (fun s b => s.laneBit 0 b false) (working.modLane 0 fun r =>
      { r with state := .hunt, position := 0, partialWord := ⟨[], false, none⟩ })
    let t := (List.replicate 16 false).foldl (fun s b => s.laneBit 0 b true) s
    s.pending = working.pending ∧ t.pending = .wordArrival 0 0 true :: working.pending := by decide +kernel

/-- The refusal bodies have the lengths that the replies of section 9.4 have. -/
theorem test_refusalBodies : ∀ c : Command, c ∈ Command.all → c ≠ .ping →
    (refusalBody c).length = bodyLength c [] := by decide

/-! ## Witnesses: for each obligation with hypotheses, something that meets them -/

theorem witness_StepTakesTheFrontCommand :
    working.pending = .sendCompletion :: [] ∧ State.reset.pending = [] ∧ State.reset.stopRequests = [] :=
  ⟨rfl, rfl, rfl⟩

theorem witness_CommandsThatCannotOccurChangeNothing :
    Instr.linkReset ≠ .hrxChangesToMark ∧ occurs working .linkReset = false := by decide +kernel

/-- The part at work obeys the page law. -/
theorem working_pageLaw : working.PageLaw where
  once := by decide +kernel
  order := by decide +kernel
  loads := by decide +kernel
  free := by decide +kernel
  owned := by decide +kernel

/-- An unknown type, a refused length and an allowed one. -/
theorem witness_EachTakingQueuesOneReply :
    (asked ⟨0x7F, 5, []⟩).PageLaw ∧ (∀ f, (asked f).Takes f) ∧
    ((Instr.badType 0x7F 5 []).wf = true ∧ takenFrame (.badType 0x7F 5 []) = some ⟨0x7F, 5, []⟩ ∧
      Command.ofCode 0x7F = none) ∧
    ((Instr.linkSet 5 [1]).wf = true ∧ takenFrame (.linkSet 5 [1]) = some ⟨0x03, 5, [1]⟩ ∧
      lengthOk .linkSet 1 = false) ∧
    (Instr.linkSet 5 [1, 1]).wf = true ∧ lengthOk .linkSet 2 = true :=
  ⟨{ working_pageLaw with }, asked_takes, by decide +kernel⟩

theorem witness_RefusedCommandsChangeNothingElse :
    (asked ⟨0x33, 5, [16, 0]⟩).Takes ⟨0x33, 5, [16, 0]⟩ ∧ (Instr.chanStop 5 [16, 0]).wf = true ∧
    takenFrame (.chanStop 5 [16, 0]) = some ⟨0x33, 5, [16, 0]⟩ := ⟨asked_takes _, by decide +kernel⟩

/-- One witness for each of the three checks: a type, a length, and a reserved bit of a clear byte; and
payloads that the table of reserved bytes is about. -/
theorem witness_MalformedCommandsAreRefused :
    (∀ f, (asked f).Takes f) ∧ Command.ofCode 0x43 = none ∧ ([5, 1, 2, 3] : List Byte).take 2 = [5, 1] ∧
    ((Instr.ping 5 (List.replicate 17 0)).wf = true ∧ lengthOk .ping 17 = false) ∧
    (Instr.chanQuery 5 [0, 2]).wf = true ∧ lengthOk .chanQuery 2 = true ∧
      reservedOk .chanQuery [0, 2] = false := ⟨asked_takes, by decide +kernel⟩

/-- The reserved bytes and bits, each at its first bad value. -/
theorem test_reserved :
    reservedOk .deviceReset [1, 0] = false ∧ reservedOk .deviceReset [0, 1] = false ∧
    reservedOk .deviceQuery [1, 0] = false ∧ reservedOk .deviceQuery [0, 1] = true ∧
    reservedOk .deviceQuery [0, 2] = false ∧ reservedOk .bankData [0, 1] = false ∧
    reservedOk .laneSet [0, 1, 2, 1] = false ∧ reservedOk .watchQuery [0, 0x80] = false ∧
    reservedOk .watchOff [7, 1] = false := by decide +kernel

/-- A queue with one place left, and a full one. -/
theorem witness_CountersSaturate :
    let waiting (n : Nat) : State :=
      { State.reset with arbiter := { Arbiter.reset with notices := List.replicate n (.staleAck 3 7) } }
    (waiting 15).arbiter.notices.length < 16 ∧ 16 ≤ (waiting 16).arbiter.notices.length := by decide +kernel

theorem witness_PingAnswersItsPayload :
    (asked ⟨0x01, 5, List.replicate 16 0⟩).Takes ⟨0x01, 5, List.replicate 16 0⟩ ∧
    (List.replicate 16 (0 : Byte)).length ≤ 16 := ⟨asked_takes _, by decide⟩

theorem witness_LinkSetAnswersItsValues : (asked ⟨0x03, 5, [5, 50]⟩).Takes ⟨0x03, 5, [5, 50]⟩ := asked_takes _

theorem witness_DeviceQueryReportsTheLink :
    (asked ⟨0x04, 5, [0, 1]⟩).Takes ⟨0x04, 5, [0, 1]⟩ ∧ ((1 : Byte) = 0 ∨ (1 : Byte) = 1) :=
  ⟨asked_takes _, by decide⟩

theorem witness_DeviceResetIsPendingThenPerformed :
    (asked ⟨0x02, 5, [0, 0]⟩).Takes ⟨0x02, 5, [0, 0]⟩ ∧
    (takenFrame (.ping 9 []) = some ⟨0x01, 9, []⟩ ∧
      (working.modLink fun k => { k with resetPending := true }).link.resetPending = true) ∧
    let s := sending (working.modLink fun k => { k with replies := [⟨8, 0x02, .ok, [], 0⟩] }) .reply
    s.arbiter.transmission = some ⟨.reply, ⟨0x83, 0, [7, 2]⟩⟩ ∧
      s.link.replies = ⟨8, 0x02, .ok, [], 0⟩ :: [] := ⟨asked_takes _, ⟨rfl, rfl⟩, rfl, rfl⟩

/-- LEN at its bounds, and a body one byte short of the last. -/
theorem witness_AssemblerFollowsItsTable :
    State.reset.link.receiver = .readyForStart ∧ State.reset.link.assembler = .seek ∧ (0xA6 : Byte) ≠ 0xA7 ∧
    working.link.receiver = .readyForStart ∧ working.link.assembler = .length ∧
    (2 ≤ (2 : Byte).toNat ∧ (250 : Byte).toNat ≤ 250) ∧ ((1 : Byte).toNat < 2 ∧ 250 < (251 : Byte).toNat) ∧
    (working.modLink fun k => { k with assembler := .body 2 [1, 2] }).link.assembler = .body 2 [1, 2] ∧
    [(1 : Byte), 2].length + 1 < (2 : Byte).toNat + 2 := by decide +kernel

/-- A PING with a good and with a bad last byte, at a queue of 3 and of 4 frames, and an ACK with a nonzero
reserved byte. -/
theorem witness_CompleteFrameIsCheckedAndRouted :
    let f : Frame := ⟨0x01, 5, []⟩
    let a : Frame := ⟨0x50, 0, [15, 0, 1, 0]⟩
    let l (f : Frame) : List Byte := (f.bytes.drop 2).dropLast
    let good (f : Frame) (b : Byte) : Prop :=
      let received := l f ++ [b]
      let len := natByte (f.payload.length + 2)
      crc16 (len :: received.take len.toNat) =
        byteAt received (len.toNat + 1) ++ byteAt received len.toNat
    let queue (n : Nat) : State := working.modLink fun k => { k with inbound := List.replicate n f }
    (assembling (queue 3) f).link.receiver = .readyForStart ∧
    (assembling (queue 3) f).link.assembler = .body 2 (l f) ∧ (l f).length + 1 = (2 : Byte).toNat + 2 ∧
    ¬ good f (lastByte f + 1) ∧ good f (lastByte f) ∧ (assembling (queue 3) f).link.inbound.length < 4 ∧
    4 ≤ (assembling (queue 4) f).link.inbound.length ∧
    (assembling working a).link.assembler = .body 6 (l a) ∧ (l a).length + 1 = (6 : Byte).toNat + 2 ∧
    good a (lastByte a) := by decide +kernel

/-- ACKs for channel 0, sequence 1, which also frees batch 0, and for a sequence that is not in flight; the
last batch of a channel that drains, for either cause of its stop. -/
theorem witness_AckFreesTheBatchAndThoseBefore :
    let a (q : Byte) : Frame := ⟨0x50, 0, [0, q, 0, 0]⟩
    let l (q : Byte) : List Byte := ((a q).bytes.drop 2).dropLast
    let good (q : Byte) : Prop :=
      let received := l q ++ [lastByte (a q)]
      (crc16 (6 :: received.take 6) = byteAt received 7 ++ byteAt received 6) ∧
        received.take 6 = [0x50, 0, natByte (0 : ChanId).val, q, 0, 0]
    let s := assembling working (a 1)
    s.link.receiver = .readyForStart ∧ s.link.assembler = .body 6 (l 1) ∧ (l 1).length + 1 = 6 + 2 ∧
    good 1 ∧ good 2 ∧
    (∀ x ∈ (s.deliv 0).inflightOrder,
      ¬ (((s.deliv 0).slot x).state = .inflight ∧ ((s.deliv 0).slot x).sequence = 2)) ∧
    (s.deliv 0).inflightOrder = [0] ++ 1 :: [] ∧ ((s.deliv 0).slot 1).state = .inflight ∧
    ((s.deliv 0).slot 1).sequence = 1 ∧ ((s.deliv 0).slot 0).sequence ≠ 1 ∧
    let d : ChanDelivery := ⟨(Vector.replicate 4 .free).set 0 (batch .inflight 3 1 (.running 50)), 2, 0, [], [0],
      true⟩
    let u (cause : StopCause) : State := ((s.modDeliv 0 fun _ => d).modChan 0 fun ch =>
      { ch with state := .stopping, stopCause := some cause })
    ((u .watch).deliv 0).inflightOrder = [] ++ 0 :: [] ∧ ((u .watch).deliv 0).drainWatch = true ∧
    (∀ y, y ≠ 0 → ((((u .watch).deliv 0).slot y).state = .free)) ∧
    ((u .watch).chan 0).stopCause = some .watch ∧ ((u .command).chan 0).stopCause = some .command := by
  decide +kernel

theorem witness_HrxLevelAndReceiverErrors :
    working.link.detector = .idle ∧ working.link.receiver = .readyForStart ∧ State.reset.link.assembler = .seek ∧
    State.reset.link.receiver = .readyForStart ∧ working.link.assembler ≠ .seek ∧
    working.link.gapTimer = .running 5 := by decide +kernel

theorem witness_FrameBytesBecomeOneQueuedFrame :
    let f : Frame := ⟨0x11, 5, List.replicate 248 0xA7⟩
    let s : State := State.reset.modLink fun k => { k with inbound := List.replicate 3 f }
    s.link.receiver = .readyForStart ∧ s.link.assembler = .seek ∧ f.payload.length ≤ 248 ∧ f.type ≠ 0x50 ∧
      s.link.inbound.length < 4 := by decide +kernel

/-- Lane 0 of the part at work with another lock state and word in assembly. -/
def assemblingWord (state : LaneState) (k : PartialWord) : State :=
  working.modLane 0 fun r => { r with state := state, partialWord := k }

/-- A line at mark, one at space without a character; CHECK and LOCKED between words; and in HUNT a marker
that cuts a word and one that does not, before a word, within it and at its last bit; OFF. -/
theorem witness_WireBitsSpellCommands :
    let ready := State.reset.link
    let atSpace : Link := { ready with receiver := .waitMark, detector := .space }
    let lane (state : LaneState) (k : PartialWord) : Lane := (assemblingWord state k).lane 0
    let cuts (k : PartialWord) (marker : Bool) : Prop :=
      marker = true ∧ k.lastMarker ≠ some true ∧ (k.bits = [] ∨ k.marker = false)
    (∀ k, (lane .hunt k).state = .hunt ∧ (lane .hunt k).partialWord = k ∧ (lane .off k).state = .off) ∧
    (ready.receiver = .readyForStart ∧ ready.rxChar = none ∧ ready.detector = .idle) ∧
    (atSpace.receiver = .waitMark ∧ atSpace.rxChar = none ∧ atSpace.detector ≠ .idle) ∧
    ((lane .check .empty).state = .check ∧ (lane .check .empty).partialWord.bits = []) ∧
    ((lane .locked .empty).state = .locked ∧ (lane .locked .empty).partialWord.bits = []) ∧
    cuts ⟨[], false, none⟩ true ∧ cuts ⟨[true], false, some false⟩ true ∧
    ¬ cuts ⟨[], false, some true⟩ true ∧ ¬ cuts ⟨List.replicate 14 true, true, some false⟩ true ∧
    ¬ cuts ⟨List.replicate 15 true, false, some false⟩ false ∧
      List.replicate 15 true ++ [true] = (List.range 16).map (BitVec.getMsbD (0xFFFF : Sample)) :=
  ⟨fun _ => ⟨rfl, rfl, rfl⟩, by decide +kernel⟩

/-- Lane 0 of the part at work with another lock state and position. -/
def laneAt (state : LaneState) (m position : Nat) (fifo : List FifoEntry) : State :=
  working.modLane 0 fun r => { r with state := state, slotCount := m, position := position, fifo := fifo }

theorem witness_HuntWaitsForTheMarker : ((laneAt .hunt 2 0 []).lane 0).state = .hunt := by decide +kernel

/-- Below M and at M, with M of 1 as well. -/
theorem witness_CheckCountsToTheNextMarker :
    ((laneAt .check 2 1 []).lane 0).state = .check ∧ ((laneAt .check 2 1 []).lane 0).position = 1 ∧
    ((laneAt .check 2 2 []).lane 0).state = .check ∧ ((laneAt .check 2 2 []).lane 0).position = 2 ∧
    ((laneAt .check 1 1 []).lane 0).state = .check ∧ ((laneAt .check 1 1 []).lane 0).slotCount = 1 := by
  decide +kernel

/-- Slot 1, which no channel needs; slot 0, which channel 0 needs, with 31 entries and with 32. -/
theorem witness_LockedWordsAreNumberedAndAdmitted :
    let e : FifoEntry := ⟨0, 1, false⟩
    let needed (s : State) (p : SlotId) : Prop :=
      ∃ c, (s.chan c).state = .running ∧ (s.chan c).config.lane = 0 ∧ (s.chan c).config.slot = p
    ((laneAt .locked 2 1 []).lane 0).position = (1 : SlotId).val ∧ ¬ needed (laneAt .locked 2 1 []) 1 ∧
    ((laneAt .locked 2 0 []).lane 0).position = (0 : SlotId).val ∧
    needed (laneAt .locked 2 0 (List.replicate 31 e)) 0 ∧
    ((laneAt .locked 2 0 (List.replicate 31 e)).lane 0).fifo.length < 32 ∧
    needed (laneAt .locked 2 0 (List.replicate 32 e)) 0 ∧
    32 ≤ ((laneAt .locked 2 0 (List.replicate 32 e)).lane 0).fifo.length := by decide +kernel

/-- Both causes of a misframe. -/
theorem witness_MisframeLosesTheLane :
    ((laneAt .locked 2 1 []).lane 0).state = .locked ∧
    true ≠ decide (((laneAt .locked 2 1 []).lane 0).position = 0) ∧
    false ≠ decide (((laneAt .locked 2 0 []).lane 0).position = 0) := by decide +kernel

theorem witness_LaneCommandsSetAndReport :
    let busy (l : LaneId) : Prop := ∃ c, (working.chan c).config.lane = l ∧
      ((working.chan c).state = .running ∨ (working.chan c).state = .stopping)
    (∀ f, (asked f).Takes f) ∧ 4 ≤ (4 : Byte).toNat ∧ busy 0 ∧ ¬ busy 3 ∧
    (2 ≤ (2 : Byte).toNat ∧ (0 : Byte).toNat = 0 ∧ 8 < (9 : Byte).toNat) ∧
    (1 : Byte).toNat < 2 ∧ 1 ≤ (1 : Byte).toNat ∧ (8 : Byte).toNat ≤ 8 := ⟨asked_takes, by decide +kernel⟩

theorem witness_DispatchStartTakesTheNextLane :
    let s := working.setDispatch none
    s.engine.dispatch = none ∧ (∀ j : Fin 4, j < 3 → (s.lane (s.engine.lastServed + 1 + j)).fifo = []) ∧
    (s.lane (s.engine.lastServed + 1 + 3)).fifo = ⟨0, 0x0100, false⟩ :: [] := by decide +kernel

/-- The entry of channel 0 in the dispatch of the part at work. -/
def dueEntry : SnapEntry := ⟨0, 1, true, some 0, none, false, 5⟩

/-- The dispatch of the part at work, with its entry given. -/
def inFlight (e : SnapEntry) : Dispatch := ⟨0, ⟨0, 0x1000, false⟩, [e], []⟩

/-- The last of the three coefficients. -/
theorem witness_DamageMarkingDamagesTheBankAtOnce :
    let d := inFlight dueEntry
    working.engine.dispatch = some d ∧ d.snapshot.find? (fun e => e.channel == 0) = some dueEntry ∧
    (2 : Fin 256).val < min (working.bank 0).taps (min 256 (dueEntry.fillAtStart + 1)) ∧
    (∀ j, j < (2 : Fin 256).val →
      (working.coeff (working.bank 0) j).markGood = true ∧ (working.sampleAt d 0 j).markGood = true) ∧
    (working.bank 0).pages[(2 : Fin 256).val / 64]? = some 0 := by decide +kernel

/-- Channel 1 has no entry at all; a struck entry of channel 0 fails the guard, be the channel RUNNING or, as
after an abort, a start and a stop, STOPPING. -/
theorem witness_CompletionEndsTheDispatch :
    let struck := inFlight { dueEntry with struck := true }
    let restopped := (working.setDispatch (some struck)).modChan 0 fun ch => { ch with state := .stopping }
    working.engine.dispatch = some (inFlight dueEntry) ∧
    (∀ e ∈ (inFlight dueEntry).snapshot, e.channel = 1 → ¬ guardPasses working e) ∧
    (working.setDispatch (some struck)).engine.dispatch = some struck ∧
    (∀ s ∈ [working.setDispatch (some struck), restopped], ∀ e ∈ struck.snapshot, ¬ guardPasses s e) ∧
    restopped.engine.dispatch = some struck ∧ (restopped.chan 0).state = .stopping ∧
    (∃ e ∈ struck.snapshot, e.channel = 0) ∧ (struck.snapshot.map (·.channel)).Nodup ∧
    struck.snapshot.length = 1 := by
  unfold guardPasses
  decide +kernel

/-- An entry that is not output due. -/
def quietEntry : SnapEntry := { dueEntry with due := false, bank := none }

/-- The part at work with that entry in flight and channel 0 between outputs. -/
def between (state : ChanState) (cause : Option StopCause) (d : ChanDelivery) : State :=
  ((working.setDispatch (some (inFlight quietEntry))).modDeliv 0 fun _ => d).modChan 0 fun ch =>
    { ch with
      state := state, stopCause := cause, staged := none, opSlot := .none
      config := { ch.config with decimation := 2 } }

/-- A RUNNING channel; then the five cases of a close: drain watch on, a FILLING batch, none but others with a
loss pending, and no batch for either cause. -/
theorem witness_CompletionAppendsTheSample :
    let d := working.deliv 0
    let closed : ChanDelivery := { d with drainWatch := true }
    let lossy : ChanDelivery := { d with slots := d.slots.set 3 .free, pendingLost := 9 }
    let s := between .running none d
    (∀ u ∈ [s, between .stopping (some .command) closed, between .stopping (some .watch) lossy],
      u.engine.dispatch = some (inFlight quietEntry) ∧ guardPasses u quietEntry ∧
      (u.chan 0).phase + 1 ≠ (u.chan 0).config.decimation) ∧
    ((inFlight quietEntry).snapshot.map (·.channel)).Nodup ∧ quietEntry ∈ (inFlight quietEntry).snapshot ∧
    d.drainWatch = false ∧ (d.slot 3).state = .filling ∧ (∀ x, x < 3 → (d.slot x).state ≠ .filling) ∧
    lossy.drainWatch = false ∧ (∀ x, (lossy.slot x).state ≠ .filling) ∧ (lossy.slot 0).state ≠ .free ∧
    (∀ x, (ChanDelivery.reset.slot x).state = .free) ∧ ChanDelivery.reset.drainWatch = false ∧
    ∀ cause ∈ [StopCause.command, .watch],
      ((between .stopping (some cause) .reset).chan 0).stopCause = some cause := by
  unfold guardPasses
  decide +kernel

/-- Channel 0 RUNNING with a swap staged, RUNNING with a NOTIFY_STOP watch that the output trips, and STOPPING;
history entries beyond the three terms that fail their check; and the watch in `stopFirst` or `stopLate`, or in
neither. -/
theorem witness_CompletionHandsOnTheOutput :
    let d := inFlight dueEntry
    let x (k : Nat) : StoredWord :=
      if k = 0 then ⟨d.sample.value, true⟩ else (working.ring 0).getD (k - 1) Config.unwritten
    let alarmed := working.modWatch 3 fun w => { w with action := .notifyStop }
    let stopping := working.modChan 0 fun ch =>
      { ch with state := .stopping, staged := none, opSlot := .pending .stop 0x40, stopCause := some .command }
    (∀ s ∈ [working, alarmed, stopping],
      s.engine.dispatch = some d ∧ guardPasses s dueEntry ∧
      (s.chan 0).phase + 1 = (s.chan 0).config.decimation ∧
      min (s.bank 0).taps (min 256 (dueEntry.fillAtStart + 1)) = 3 ∧
      ∀ k, k < 3 → (s.coeff (s.bank 0) k).markGood = true ∧ (x k).markGood = true) ∧
    (d.snapshot.map (·.channel)).Nodup ∧ dueEntry ∈ d.snapshot ∧
    (∀ k : Fin 256, ((0 : ChanId), k) ∈ [((0 : ChanId), (3 : Fin 256))] → k.val = 0 ∨ 3 ≤ k.val) ∧
    ((List.finRange 8).foldl (Evaluation.step 0 0 5120) ⟨alarmed, [], []⟩).stops = [3] ∧
    (3 : WatchId) ∈ [(3 : WatchId)] ∧ (3 : WatchId) ∉ ([] : List WatchId) ∧
    (alarmed.chan 0).state = .running ∧ (alarmed.chan 0).staged = some 1 := by
  unfold guardPasses
  decide +kernel

/-- A fault cause set at the start; and found: at the bad coefficient 2, at a history entry that the operand
names, and at one that the ring holds bad. -/
theorem witness_CompletionFaultsTheChannel :
    let set : SnapEntry := { dueEntry with fault := some (.bank 0) }
    let u : State := { working with coeffMem := [(0, ⟨0x4000, true⟩), (2, ⟨0xE000, false⟩)] }
    let v : State := { working with engine := { working.engine with
      rings := working.engine.rings.set 0 [⟨0x2000, false⟩] } }
    let good (s : State) (k : Nat) : Bool := (s.coeff (s.bank 0) k).markGood
    let badEntry (s : State) (named : List Nat) (k : Nat) : Bool := decide (1 ≤ k ∧ k ≤ (s.ring 0).length) &&
      (!((s.ring 0).getD (k - 1) Config.unwritten).markGood || named.contains k)
    guardPasses working set ∧ guardPasses u dueEntry ∧ guardPasses v dueEntry ∧
    ((inFlight dueEntry).snapshot.map (·.channel)).Nodup ∧
    (∀ s ∈ [working, u, v], min (s.bank 0).taps (min 256 (dueEntry.fillAtStart + 1)) = 3 ∧
      (s.bank 0).state = .sealed) ∧
    ((∀ j, j < 2 → good u j = true ∧ badEntry u [] j = false) ∧ good u 2 = false) ∧
    ((∀ j, j < 2 → good working j = true ∧ badEntry working [2] j = false) ∧ good working 2 = true ∧
      badEntry working [2] 2 = true) ∧
    (∀ j, j < 1 → good v j = true ∧ badEntry v [] j = false) ∧ good v 1 = true ∧ badEntry v [] 1 = true := by
  unfold guardPasses
  decide +kernel

/-- Sums at and beyond either bound. -/
theorem witness_AccumulatorFollowsTheRangePolicy :
    ((-2 ^ 37 : Int) ≤ -2 ^ 37 + 0 ∧ (2 ^ 37 - 2 : Int) + 1 ≤ 2 ^ 37 - 1) ∧
    (2 ^ 37 - 1 < (2 ^ 37 - 1 : Int) + 1) ∧ ((-2 ^ 37 : Int) + -1 < -2 ^ 37) ∧
    ∀ k, k < 2 → (⟨5, true⟩ : StoredWord).markGood = true ∧ (⟨6, true⟩ : StoredWord).markGood = true := by
  decide +kernel

theorem witness_ScalingRoundsAndClips :
    1 ≤ 1 ∧ (-2 ^ 23 : Int) ≤ -2 ^ 23 ∧ (2 ^ 23 - 1 : Int) ≤ 2 ^ 23 - 1 ∧ (2 ^ 23 - 1 : Int) < 2 ^ 23 ∧
    (-2 ^ 23 - 1 : Int) < -2 ^ 23 := by decide +kernel

theorem witness_WatchConditionComparesSigned :
    Watch.reset.kind = .above ∧ ({ Watch.reset with kind := .below }).kind = .below ∧
    ({ Watch.reset with kind := .outside }).kind = .outside ∧
    ({ Watch.reset with kind := .inside }).kind = .inside := ⟨rfl, rfl, rfl, rfl⟩

/-- The six rows, on watch 3 with H = 2 and R = 3; that watch OFF, and an output of another channel. -/
theorem witness_WatchEvaluationFollowsItsTable :
    let w (st : WatchState) (run : Nat) : Watch := { working.watch 3 with state := st, run := run }
    (w .off 0).channel = 0 ∧ (w .off 0).state = .off ∧ (w .clear 0).channel ≠ 15 ∧
    (w .clear 0).channel = 0 ∧ (w .clear 0).condition 1001 = true ∧ (w .clear 0).run + 1 < (w .clear 0).hold ∧
    (w .clear 1).run + 1 = (w .clear 1).hold ∧ (w .clear 1).condition 1000 = false ∧
    (w .tripped 1).run + 1 < (w .tripped 1).release ∧ (w .tripped 2).run + 1 = (w .tripped 2).release ∧
    (w .tripped 2).condition (-1000) = false ∧ (w .tripped 2).condition (-1001) = true := by decide +kernel

/-- An accepted WATCH_SET with both limits at their bounds, and one with a limit just beyond. -/
theorem witness_WatchCommandsSetClearAndReport :
    let limit (x : BitVec 32) : Prop := -2 ^ 23 ≤ x.toInt ∧ x.toInt ≤ 2 ^ 23 - 1
    (∀ f, (asked f).Takes f) ∧ limit (-8388608) ∧ limit 8388607 ∧ ¬ limit 8388608 ∧
    (-8388608 : BitVec 32).toInt ≤ (8388607 : BitVec 32).toInt ∧
    (7 : Byte) = natByte (7 : WatchId).val ∧ (15 : Byte) = natByte (15 : ChanId).val ∧
    (2 : Byte) = WatchKind.outside.code ∧ (1 : Byte) = WatchAction.notifyStop.code ∧
    8 ≤ (8 : Byte).toNat ∧ (1 : Byte).toNat < 2 := ⟨asked_takes, by decide +kernel⟩

/-- A FILLING batch, no FILLING batch but a FREE slot, and neither. -/
theorem witness_AppendFillsABatchOrLosesTheOutput :
    let full := working.modDeliv 0 fun d => d.makeReady 3 false
    ((working.deliv 0).slot 3).state = .filling ∧
    (∀ x, x < (3 : BatchId) → ((working.deliv 0).slot x).state ≠ .filling) ∧
    (∀ x, ((State.reset.deliv 0).slot x).state ≠ .filling) ∧ ((State.reset.deliv 0).slot 0).state = .free ∧
    ∀ x, ((full.deliv 0).slot x).state ≠ .filling ∧ ((full.deliv 0).slot x).state ≠ .free := by decide +kernel

/-- Retry counts below and at the limit; with the drain watch on, another batch left, and none for either cause
of the stop. -/
theorem witness_AckTimerExpiryResendsOrDrops :
    let spent : BatchSlot := { batch .inflight 3 1 (.running 50) with retry := 3 }
    let others : ChanDelivery := { working.deliv 0 with
      slots := (working.deliv 0).slots.set 0 spent, drainWatch := true }
    let last : ChanDelivery := ⟨(Vector.replicate 4 .free).set 0 spent, 2, 0, [], [0], true⟩
    let s (d : ChanDelivery) (cause : StopCause) : State := (working.modDeliv 0 fun _ => d).modChan 0 fun ch =>
      { ch with state := .stopping, stopCause := some cause, staged := none, opSlot := .none }
    (((working.deliv 0).slot 0).state = .inflight ∧ ((working.deliv 0).slot 0).timer = .running 50 ∧
      ((working.deliv 0).slot 0).retry < (working.chan 0).config.retryLimit) ∧
    ∀ cause ∈ [StopCause.command, .watch],
      ((s last cause).chan 0).config.retryLimit ≤ spent.retry ∧ spent.state = .inflight ∧
      (((s others cause).deliv 0).slot 0 = spent ∧ (others.slot 1).state = .inflight) ∧
      ((s last cause).deliv 0).slot 0 = spent ∧ ((s last cause).deliv 0).drainWatch = true ∧
      (∀ x, x ≠ 0 → (last.slot x).state = .free) ∧ ((s last cause).chan 0).state = .stopping ∧
      ((s last cause).chan 0).stopCause = some cause := by decide +kernel

/-- The part at work with the transmitter free and no greeting pending. -/
def idleLine (f : Link → Link) : State := working.freeTransmitter.modLink fun k => { f k with greeting := false }

/-- One source after another. -/
theorem witness_TransmissionStartTakesTheFirstSource :
    working.freeTransmitter.arbiter.transmission = none ∧ working.freeTransmitter.link.greeting = true ∧
    (idleLine id).link.replies = ⟨8, 0x03, .ok, [2, 7], 0⟩ :: [] ∧
    let s := idleLine fun k => { k with replies := [] }
    let done := s.modChan 2 fun ch => { ch with opSlot := .unreported .stop 9 .ok }
    (done.chan 2).opSlot = .unreported .stop 9 .ok ∧ (∀ c < (2 : ChanId), !(done.chan c).opSlot.isUnreported) ∧
    (∀ c, !(s.chan c).opSlot.isUnreported) ∧ s.arbiter.notices = .staleAck 3 7 :: [] ∧
    let u := s.modArb fun a => { a with notices := [] }
    u.resend = (0, 1) :: [] ∧
    let v : State := { u with resend := [] }
    v.arbiter.list (v.chan 1).config.cls = [0] ++ 1 :: (List.finRange 16).drop 2 ∧ ¬ v.eligible 0 ∧
    (1 : ChanId) ∉ (List.finRange 16).drop 2 ∧ (v.deliv 1).readyOrder = 0 :: [] ∧
    (v.deliv 1).count .inflight < (v.chan 1).config.window ∧
    ∀ cls, cls < (v.chan 1).config.cls → v.arbiter.list cls = [] := by decide +kernel

/-- One transmission of each kind, and the fates of a batch: gone, INFLIGHT, and in auto-acknowledge mode with
the drain watch off, with another batch left, and the last for either cause of the stop. -/
theorem witness_SendCompletionSettlesTheFrame :
    let f : Frame := ⟨0x83, 0, [7, 2]⟩
    let done := working.modChan 2 fun ch => { ch with opSlot := .unreported .stop 9 .ok }
    let sent : BatchSlot := { batch .ready 3 6 .stopped with beingSent := true }
    let last : ChanDelivery := ⟨(Vector.replicate 4 .free).set 0 sent, 7, 0, [], [], true⟩
    let others : ChanDelivery := { last with slots := last.slots.set 1 (batch .ready 3 7 .stopped), readyOrder := [1] }
    let timed := (working.deliv 0).modSlot 0 fun t => { t with beingSent := true, timer := .stopped }
    let s (cause : StopCause) : State := (working.modDeliv 1 fun _ => last).modChan 1 fun ch =>
      { ch with stopCause := some cause }
    working.arbiter.transmission.map (·.source) = some .greeting ∧
    (∀ x ∈ [Source.notice, .reply, .operation 2, .batch 0 0, .resend 0 0],
      (sending done x).arbiter.transmission = some ⟨x, f⟩) ∧
    working.link.replies = ⟨8, 0x03, .ok, [natByte (2 : Fin 6).val, 7], 0⟩ :: [] ∧
    working.link.rate ≠ 2 ∧ working.link.assembler ≠ .seek ∧ State.reset.link.assembler = .seek ∧
    (done.chan 2).opSlot = .unreported .stop 9 .ok ∧ ((working.deliv 0).slot 0).beingSent = false ∧
    ((timed.slot 0).beingSent = true ∧ (timed.slot 0).state = .inflight) ∧
    (sent.beingSent = true ∧ sent.state = .ready ∧ last.slot 0 = sent ∧ others.slot 0 = sent) ∧
    (others.drainWatch = true ∧ (others.slot 1).state = .ready) ∧ (working.deliv 0).drainWatch = false ∧
    last.drainWatch = true ∧ (∀ x, x ≠ 0 → (last.slot x).state = .free) ∧
    ∀ cause ∈ [StopCause.command, .watch],
      ((s cause).chan 1).state = .stopping ∧ ((s cause).chan 1).stopCause = some cause := by decide +kernel

/-- A bank in use, tap counts at and beyond their bounds, a pool one page short, and an ascending pool. -/
theorem witness_BankOpenTakesTheLowestPages :
    let f (n lo hi : Byte) : Frame := ⟨0x10, 5, [n, 0, lo, hi]⟩
    (∀ n lo hi, (asked (f n lo hi)).Takes (f n lo hi)) ∧ 32 ≤ (32 : Byte).toNat ∧
    ((asked (f (natByte 2) 1 0)).bank 2).state ≠ .free ∧ ((asked (f (natByte 31) 0 0)).bank 31).state = .free ∧
    ((1 : Byte) ++ (0 : Byte)).toNat = 256 ∧ 256 < ((1 : Byte) ++ (1 : Byte)).toNat ∧
    (256 + 63) / 64 ≤ (asked (f (natByte 31) 0 1)).pool.length ∧ working.pool.Pairwise (· < ·) ∧
    let s : State := { asked (f (natByte 31) 0 1) with pool := [61, 62, 63] }
    s.pool.length < (256 + 63) / 64 := ⟨fun _ _ _ => asked_takes _, by decide +kernel⟩

/-- Bank 2, with 63 of its 65 coefficients loaded, takes two more that lie in two pages. -/
theorem witness_BankDataStoresInOrder :
    working.PageLaw ∧ (∀ f, (asked f).Takes f) ∧ 32 ≤ (32 : Byte).toNat ∧
    (working.bank 0).state ≠ .opened ∧ (working.bank 2).state = .opened ∧
    ((0 : Byte) ++ (63 : Byte)).toNat = (working.bank 2).loaded ∧
    ((0 : Byte) ++ (62 : Byte)).toNat ≠ (working.bank 2).loaded ∧
    (working.bank 2).taps < 63 + [1, 2, 3].length ∧ 63 + [1, 2].length ≤ (working.bank 2).taps ∧
    Memory.wf working.coeffMem = true ∧ (working.bank 2).pages[((working.bank 2).loaded + 1) / 64]? = some 3 :=
  ⟨working_pageLaw, asked_takes, by decide +kernel⟩

/-- A bank of one coefficient 0x0201, loaded, not loaded, and with a bad mark. -/
theorem witness_BankSealChecksTheChecksum :
    let k : Bank := ⟨.opened, 1, [0], 1, 0, false⟩
    let sum := crc16 [1, 2]
    let lo := byteAt (halfBytes sum) 0
    let hi := byteAt (halfBytes sum) 1
    let f (n lo : Byte) : Frame := ⟨0x12, 5, [n, 0, lo, hi]⟩
    let s (w : StoredWord) (lo : Byte) : State := { withBank k (f (natByte 0) lo) with coeffMem := [(0, w)] }
    let value (m : List (Nat × StoredWord)) : Half :=
      crc16 ((List.range k.taps).flatMap fun j =>
        halfBytes (({ s ⟨0x0201, true⟩ lo with coeffMem := m }.coeff k j).value))
    (∀ w lo, (s w lo).Takes (f (natByte 0) lo)) ∧ (asked (f 32 lo)).Takes (f 32 lo) ∧
    (working.bank 0).state ≠ .opened ∧ (working.bank 2).loaded ≠ (working.bank 2).taps ∧
    (s ⟨0x0201, true⟩ lo).bank 0 = k ∧ (∀ j, j < 1 → ((s ⟨0x0201, true⟩ lo).coeff k j).markGood = true) ∧
    value [(0, ⟨0x0201, true⟩)] = hi ++ lo ∧ value [(0, ⟨0x0201, true⟩)] ≠ hi ++ (lo + 1) ∧
    ((s ⟨0x0201, false⟩ lo).coeff k 0).markGood = false ∧ k.pages[(0 : Fin 256).val / 64]? = some 0 ∧
    Memory.wf (s ⟨0x0201, true⟩ lo).coeffMem = true :=
  ⟨fun _ _ => ⟨rfl, (by decide : 0 < 8), rfl⟩, asked_takes _, by decide +kernel⟩

/-- Bank 31 is FREE, bank 0 referenced, bank 2 may be freed; the same bank held. -/
theorem witness_BankFreeReturnsThePages :
    let held := working.modBank 2 fun k => { k with hold := true }
    (∀ f, (asked f).Takes f) ∧ 32 ≤ (32 : Byte).toNat ∧ (working.bank 31).state = .free ∧
    (working.bank 0).state ≠ .free ∧ 0 < (working.bank 0).refs ∧ (working.bank 2).state ≠ .free ∧
    (working.bank 2).refs = 0 ∧ (working.bank 2).hold = false ∧ (held.bank 2).hold = true ∧
    (1 : Byte).toNat < 2 ∧ working.pool.Pairwise (· < ·) := ⟨asked_takes, by decide +kernel⟩

/-- Channel 0 runs and channel 15 is IDLE; an ack timeout of 2000 and one of 2001; banks in each state. -/
theorem witness_ConfigAndBindPrepareAChannel :
    let p (n lo : Byte) : List Byte := [n, 3, 7, 64, 23, 1, 1, 32, 3, 1, 0, 7, lo, 7]
    (⟨3, 7, 64, 23, true, .wrap, 32, 3, true, 0, 2000, 7⟩ : ChanConfig).InRange ∧ (∀ f, (asked f).Takes f) ∧
    16 ≤ (16 : Byte).toNat ∧ (working.chan 0).state = .running ∧ (working.chan 15).state = .idle ∧
    (halfAt (p 15 0xD0) 12).toNat = 2000 ∧ (halfAt (p 15 0xD1) 12).toNat = 2001 ∧ 32 ≤ (32 : Byte).toNat ∧
    (working.bank 31).state = .free ∧ (working.bank 2).state = .opened ∧
    ((working.damageBank 0).bank 0).state = .damaged ∧ (working.bank 1).state = .sealed :=
  ⟨by constructor <;> decide, asked_takes, by decide +kernel⟩

/-- A channel that is not READY, a lane that is OFF, a slot that is not below M, and a start. -/
theorem witness_StartBeginsARun :
    let ready (lane : LaneId) (slot : SlotId) : Channel :=
      { Channel.reset with state := .ready, active := some 0,
                           config := { ChanConfig.default with lane := lane, slot := slot } }
    let s (lane : LaneId) (slot : SlotId) : State :=
      { withChan (ready lane slot) ⟨0x32, 5, [natByte 0, 0]⟩ with lanes := working.lanes }
    (asked ⟨0x32, 5, [16, 0]⟩).Takes ⟨0x32, 5, [16, 0]⟩ ∧
    (∀ l p, (s l p).Takes ⟨0x32, 5, [natByte 0, 0]⟩) ∧ 16 ≤ (16 : Byte).toNat ∧ (working.chan 0).state ≠ .ready ∧
    ((s 1 0).lane 1).state = .off ∧ ((s 0 2).lane 0).slotCount ≤ (2 : SlotId).val ∧
    ((s 0 1).chan 0).state = .ready ∧ ((s 0 1).lane 0).state ≠ .off ∧
    (1 : SlotId).val < ((s 0 1).lane 0).slotCount :=
  ⟨asked_takes _, fun _ _ => ⟨rfl, (by decide : 0 < 8), rfl⟩, by decide +kernel⟩

/-- The refusals, and the four ways a stop is taken: with an entry in flight, live or struck, with a FILLING
batch, with other batches, with none. Then a waiting watch stop request of a channel that is not RUNNING, and of
one that is, with an entry in flight and without. -/
theorem witness_StopClosesTheBatchBeingFilled :
    let s := working.modChan 0 fun ch => { ch with staged := none, opSlot := .none }
    let u := s.setDispatch none
    let full := u.modDeliv 0 fun d => d.makeReady 3 false
    let empty := u.modDeliv 0 fun _ => .reset
    (∀ f, (asked f).Takes f) ∧ 16 ≤ (16 : Byte).toNat ∧ (working.chan 1).state ≠ .running ∧
    (working.chan 0).opSlot ≠ .none ∧ (s.chan 0).state = .running ∧ (s.chan 0).opSlot = .none ∧
    s.engine.dispatch = some (inFlight dueEntry) ∧
    (∀ e ∈ [dueEntry, { dueEntry with struck := true }], e ∈ (inFlight e).snapshot ∧ e.channel = 0) ∧
    u.engine.dispatch = none ∧ (u.deliv 0).drainWatch = false ∧ ((u.deliv 0).slot 3).state = .filling ∧
    (∀ x, x < (3 : BatchId) → ((u.deliv 0).slot x).state ≠ .filling) ∧
    (∀ x, ((full.deliv 0).slot x).state ≠ .filling) ∧ ((full.deliv 0).slot 0).state ≠ .free ∧
    (∀ x, ((empty.deliv 0).slot x).state = .free) ∧
    (∀ t ∈ [working, u, empty], ∀ c : ChanId,
      let waiting : State := { t with pending := [], stopRequests := [c] }
      waiting.pending = [] ∧ waiting.stopRequests = c :: [] ∧ waiting.chan c = t.chan c ∧
        waiting.engine.dispatch = t.engine.dispatch) ∧
    (empty.chan 0).state = .running ∧ empty.engine.dispatch = none := ⟨asked_takes, by decide +kernel⟩

theorem witness_AbortEndsTheRunAndClearReturnsToIdle :
    (∀ f, (asked f).Takes f) ∧ 16 ≤ (16 : Byte).toNat ∧ Operation.stop ≠ .swap ∧
    (working.chan 15).state ≠ .running ∧ (working.chan 15).state ≠ .stopping ∧
    (working.chan 0).state = .running ∧ (working.chan 1).state = .stopping := ⟨asked_takes, by decide +kernel⟩

/-- A channel that is READY and one that runs, with the slot in use and free, and banks in each state. -/
theorem witness_SwapIsImmediateOrStaged :
    let ready : Channel := { Channel.reset with state := .ready, active := some 0 }
    let running : Channel := { ready with state := .running }
    let s (ch : Channel) (m : Byte) : State := withChan ch ⟨0x36, 5, [natByte 0, m]⟩
    (∀ ch m, (s ch m).Takes ⟨0x36, 5, [natByte 0, m]⟩) ∧ (asked ⟨0x36, 5, [16, 0]⟩).Takes ⟨0x36, 5, [16, 0]⟩ ∧
    16 ≤ (16 : Byte).toNat ∧ (working.chan 15).state = .idle ∧ (working.chan 0).opSlot ≠ .none ∧
    32 ≤ (32 : Byte).toNat ∧ ((s ready 1).chan 0).state = .ready ∧ ((s ready 1).chan 0).opSlot = .none ∧
    ((s running 1).chan 0).state = .running ∧ ((s running 31).bank 31).state = .free ∧
    (working.bank 2).state = .opened ∧ ((s ready 1).bank 1).state = .sealed :=
  ⟨fun _ _ => ⟨rfl, (by decide : 0 < 8), rfl⟩, asked_takes _, by decide +kernel⟩

theorem witness_QueryReportsAndRotateMovesToTheHead :
    (∀ f, (asked f).Takes f) ∧ (1 : Byte).toNat < 2 ∧ 16 ≤ (16 : Byte).toNat ∧ 4 ≤ (4 : Byte).toNat ∧
    (2 : Byte) ≠ natByte (working.chan 15).config.cls.val := ⟨asked_takes, by decide +kernel⟩

/-- A break with and without a device reset pending, on each kind of transmission. -/
theorem witness_LinkResetAbandonsTheFrameInProgress :
    let f : Frame := ⟨0x83, 0, [7, 2]⟩
    let s := working.modLink fun k => { k with detector := .space }
    let auto := s.modDeliv 1 fun d => { d.modSlot 0 (fun t => { t with beingSent := true }) with readyOrder := [] }
    let sent := s.modDeliv 0 fun d => d.modSlot 0 fun t => { t with beingSent := true, timer := .stopped }
    s.link.detector = .space ∧ s.link.resetPending = false ∧
    (s.modLink fun k => { k with resetPending := true }).link.resetPending = true ∧
    s.freeTransmitter.arbiter.transmission = none ∧ s.arbiter.transmission.map (·.source) = some .greeting ∧
    (sending s .notice).arbiter.transmission = some ⟨.notice, f⟩ ∧
    (sending s (.resend 0 0)).arbiter.transmission = some ⟨.resend 0 0, f⟩ ∧
    ((s.deliv 0).slot 0).beingSent = false ∧ ((sent.deliv 0).slot 0).beingSent = true ∧
    ((sent.deliv 0).slot 0).state = .inflight ∧ ((auto.deliv 1).slot 0).beingSent = true ∧
    ((auto.deliv 1).slot 0).state = .ready := by decide +kernel

/-! ### The part at work obeys every law, and has a next state -/

theorem witness_StepKeepsQueuesAndLinkInBounds :
    working.QueuesBounded ∧ working.LinkLaw ∧ ∃ t, step working = .next t := by
  refine ⟨?_, ?_, _, rfl⟩
  · constructor <;> decide +kernel
  · refine { gap := ?_, values := ?_, timer := ?_, body := fun len l h => absurd h (by simp [working]) } <;>
      decide +kernel

theorem witness_StepKeepsMemoryCanonical :
    Memory.wf working.coeffMem = true ∧ ∃ t, step working = .next t := ⟨by decide +kernel, _, rfl⟩

theorem working_chan (P : Channel → Prop) (h0 : P (working.chan 0)) (h1 : P (working.chan 1))
    (h : P .reset) : ∀ c, P (working.chan c) := by
  intro c
  have : working.chan c = working.chan 0 ∨ working.chan c = working.chan 1 ∨ working.chan c = .reset := by
    revert c; decide +kernel
  rcases this with e | e | e <;> rw [e] <;> assumption

theorem witness_StepKeepsTheRunLaw : working.RunLaw ∧ ∃ t, step working = .next t := by
  refine ⟨{ config := ?_, phase := ?_, fill := ?_, retries := ?_, watches := fun w => ?_ }, _, rfl⟩
  · refine working_chan (fun ch => ch.config.InRange) ?_ ?_ ?_ <;> constructor <;> decide +kernel
  · decide +kernel
  · decide +kernel
  · decide +kernel
  · constructor <;> revert w <;> decide +kernel

theorem witness_StepKeepsThePageLaw : working.PageLaw ∧ ∃ t, step working = .next t := ⟨working_pageLaw, _, rfl⟩

theorem working_records : ∀ c, (working.chan c).Law := by
  refine working_chan Channel.Law ?_ ?_ ?_ <;> constructor <;> decide +kernel

theorem working_channelLaw : working.ChannelLaw := ⟨working_records, by decide +kernel⟩

theorem witness_StepKeepsTheChannelLaw : working.ChannelLaw ∧ ∃ t, step working = .next t :=
  ⟨working_channelLaw, _, rfl⟩

theorem witness_StepKeepsTheUseLaw :
    working.ChannelLaw ∧ working.UseLaw ∧ ∃ t, step working = .next t := by
  refine ⟨working_channelLaw, ⟨?_, ?_, ?_⟩, _, rfl⟩
  · intro b
    have : (working.bank b).hold = true ↔ b = 0 := by revert b; decide +kernel
    rw [this]
    constructor
    · rintro rfl
      exact ⟨_, rfl, _, List.mem_singleton.2 rfl, rfl⟩
    · rintro ⟨d, hd, e, he, hb⟩
      obtain rfl := Option.some.inj hd
      obtain rfl := List.mem_singleton.1 he
      exact (Option.some.inj hb).symm
  · show ∀ b, (working.bank b).refs = working.references b
    decide +kernel
  · intro b
    have : (working.bank b).refs ≠ 0 ∨ (working.bank b).hold = true → (working.bank b).state = .sealed := by
      revert b; decide +kernel
    exact fun h => Or.inl (this h)

theorem witness_StepKeepsTheLaneLaw : working.LaneLaw ∧ ∃ t, step working = .next t :=
  ⟨fun l => by constructor <;> revert l <;> decide +kernel, _, rfl⟩

theorem witness_StepKeepsTheRotationLaw : working.RotationLaw ∧ ∃ t, step working = .next t := by
  refine ⟨?_, _, rfl⟩
  show ∀ k, (working.arbiter.list k).Nodup ∧
    ∀ c, c ∈ working.arbiter.list k ↔ (working.chan c).config.cls = k
  decide +kernel

theorem working_deliveryLaw : working.DeliveryLaw where
  batches c := by constructor <;> revert c <;> decide +kernel
  listed := by decide +kernel
  condition := by
    unfold State.oneCondition
    decide +kernel
  sending c b h := absurd h (by revert c b; decide +kernel)

/-- Channel 1 drains; the only entry in flight is channel 0's. -/
theorem working_drains (c : ChanId) (h : (working.deliv c).drainWatch = true) :
    (working.chan c).state = .stopping ∧ (working.deliv c).count .filling = 0 ∧
      ∀ e, working.inSnapshot e → e.channel ≠ c := by
  obtain rfl : c = 1 := by revert c; decide +kernel
  refine ⟨rfl, by decide +kernel, ?_⟩
  rintro e ⟨d, hd, he⟩
  obtain rfl := Option.some.inj hd
  obtain rfl := List.mem_singleton.1 he
  decide

theorem witness_StepKeepsTheWindowLaw : working.WindowLaw ∧ ∃ t, step working = .next t :=
  ⟨{ delivery := working_deliveryLaw
     fits := fun c => by constructor <;> revert c <;> decide +kernel
     ranges := by decide +kernel
     empty := by decide +kernel
     drain := working_drains
     entries := fun d hd => by obtain rfl := Option.some.inj hd; decide }, _, rfl⟩

end Sys2Proof.Tests.Slice0
end

section
/-! PROOFS. What one event can do to the channels, said once: an event is a sequence of changes, each of them
one of a short list, and every law of the channels is then kept by a case split on that list. -/

namespace Sys2Proof.Machine

/-! ## Two updates of one record -/

theorem State.modChan_modChan (s : State) (c : ChanId) (f g : Channel → Channel) :
    (s.modChan c f).modChan c g = s.modChan c fun ch => g (f ch) := by
  simp [State.modChan]

/-! ## Changes of one channel record -/

/-- A channel neither RUNNING nor STOPPING is in no run. -/
theorem ChanState.inRun_iff {st : ChanState} : st.inRun = true ↔ st = .running ∨ st = .stopping := by
  cases st <;> simp [ChanState.inRun]

/-- What an event can make of a channel record, but for its configuration and for a stop taken. -/
inductive Channel.Move : Channel → Channel → Prop
  /-- Flags, output index and counters (R3, R70, R96). -/
  | tally {ch ch' : Channel}
      (h : ch' = { ch with flags := ch'.flags, outIndex := ch'.outIndex, counters := ch'.counters }) :
      Move ch ch'
  /-- A sample taken (R69). -/
  | sample {ch ch' : Channel}
      (h : ch' = { ch with
        fill := fillAfter ch.fill, flags := ch'.flags, counters := ch'.counters
        phase := if ch.phase + 1 = ch.config.decimation then 0 else ch.phase + 1 }) :
      Move ch ch'
  | bind {ch : Channel} (b : BankId) (h : ch.state = .idle ∨ ch.state = .ready) :
      Move ch { ch with active := some b, state := .ready }
  | start {ch : Channel} (h : ch.state = .ready) :
      Move ch { ch with
        session := ch.session + 1, phase := 0, fill := 0, outIndex := 0, flags := .none, state := .running }
  /-- The drain of a channel stopped by command (R15). -/
  | drained {ch : Channel} (h : ch.state = .stopping) (hc : ch.stopCause = some .command) :
      Move ch { ch with state := .ready, stopCause := none, opSlot := ch.opSlot.finishOp .stop .ok }
  /-- The drain of a channel stopped by a watch (R15). -/
  | stopped {ch : Channel} (h : ch.state = .stopping) (hc : ch.stopCause = some .watch) :
      Move ch { ch with state := .ready, stopCause := none }
  /-- A run ended at once, by an abort or by a fault (R19, R22). -/
  | ended {ch : Channel} (st : ChanState) (ds : DoneStatus) (h : ch.state.inRun = true)
      (hst : st = .ready ∨ st = .faulted) :
      Move ch { ch with staged := none, state := st, stopCause := none, opSlot := ch.opSlot.finish ds }
  | clear {ch : Channel} (h : ch.state.inRun = false) :
      Move ch { ch with
        active := none, phase := 0, fill := 0, outIndex := 0, flags := .none, counters := .zero
        state := .idle }
  | swapNow {ch : Channel} (b : BankId) (tag : Byte) (h : ch.state = .ready) (ho : ch.opSlot = .none) :
      Move ch { ch with active := some b, opSlot := .unreported .swap tag .ok }
  | stageSwap {ch : Channel} (b : BankId) (tag : Byte) (h : ch.state = .running) (ho : ch.opSlot = .none) :
      Move ch { ch with staged := some b, opSlot := .pending .swap tag }
  | swapPoint {ch : Channel} (b : BankId) (h : ch.staged = some b) :
      Move ch { ch with active := some b, staged := none, opSlot := ch.opSlot.finishOp .swap .ok }
  /-- The report of an operation sent (R12, R120). -/
  | reported (ch : Channel) :
      Move ch { ch with opSlot := if ch.opSlot.isUnreported then .none else ch.opSlot }

/-- A stop taken: the channel becomes STOPPING (R13, R21). -/
inductive Channel.Stop : Channel → Channel → Prop
  | command {ch : Channel} (tag : Byte) (h : ch.state = .running) (ho : ch.opSlot = .none) :
      Stop ch { ch with state := .stopping, stopCause := some .command, opSlot := .pending .stop tag }
  | watch {ch : Channel} (h : ch.state = .running) :
      Stop ch { ch with
        staged := none, state := .stopping, stopCause := some .watch
        opSlot := ch.opSlot.finishOp .swap .cancelled }

/-! ## Changes of the state -/

/-- Nothing that the laws of the channels speak of differs, and the commands that wait are the same. -/
structure State.Quiet (s t : State) : Prop where
  channels : t.channels = s.channels := by simp
  rings    : ∀ c, t.ring c = s.ring c := by simp
  delivery : t.delivery = s.delivery := by simp
  watches  : t.watches = s.watches := by simp
  requests : t.stopRequests = s.stopRequests := by simp
  rotation : t.arbiter.rotation = s.arbiter.rotation := by simp
  pending  : t.pending = s.pending := by simp

/-- One of the changes that events are made of. -/
inductive State.Change : State → State → Prop
  | quiet {s t : State} (h : s.Quiet t) : Change s t
  | move {s : State} (c : ChanId) (f : Channel → Channel) (h : (s.chan c).Move (f (s.chan c))) :
      Change s (s.modChan c f)
  | stop {s : State} (c : ChanId) (f : Channel → Channel) (h : (s.chan c).Stop (f (s.chan c)))
      (hr : c ∉ s.stopRequests) : Change s (s.modChan c f)
  /-- Watch stop requests taken or ignored. -/
  | ignore {s : State} {cs : List ChanId} (h : cs.Sublist s.stopRequests) :
      Change s { s with stopRequests := cs }
  /-- A watch stop request left waiting. -/
  | request {s : State} (c : ChanId) (h : (s.chan c).state = .running) (hc : c ∉ s.stopRequests) :
      Change s { s with stopRequests := s.stopRequests ++ [c] }
  | configure {s : State} (c : ChanId) (g : ChanConfig) (h : (s.chan c).state.inRun = false)
      (hg : g.InRange) : Change s (s.configure c g)
  /-- Batches changed; a retry count rises to the channel's retry limit at most. -/
  | deliver {s : State} (c : ChanId) (f : ChanDelivery → ChanDelivery)
      (h : ∀ b, ((f (s.deliv c)).slot b).retry ≤ ((s.deliv c).slot b).retry ∨
        ((f (s.deliv c)).slot b).retry ≤ (s.chan c).config.retryLimit) :
      Change s (s.modDeliv c f)
  | ring {s : State} (c : ChanId) (f : List StoredWord → List StoredWord)
      (h : (f (s.ring c)).length ≤ (s.ring c).length ∨ (f (s.ring c)).length ≤ 256) :
      Change s (s.modRing c f)
  | watch {s : State} (w : WatchId) (f : Watch → Watch) (h : (s.watch w).Law → (f (s.watch w)).Law) :
      Change s (s.modWatch w f)
  | restart {s : State} (c : ChanId) : Change s { s with watches := s.watches.map (Watch.restart c) }
  | toTail {s : State} (c : ChanId) : Change s (s.modArb fun a => a.toTail c (s.chan c).config.cls)
  | toHead {s : State} (c : ChanId) : Change s (s.modArb fun a => a.toHead c (s.chan c).config.cls)
  | reset (s : State) : Change s s.resetBlocks

/-- A sequence of changes. -/
def State.Changes : State → State → Prop := Relation.ReflTransGen State.Change

theorem State.Changes.refl (s : State) : s.Changes s := Relation.ReflTransGen.refl

theorem State.Changes.trans {s t u : State} (h : s.Changes t) (h' : t.Changes u) : s.Changes u :=
  Relation.ReflTransGen.trans h h'

theorem State.Change.changes {s t : State} (h : s.Change t) : s.Changes t := Relation.ReflTransGen.single h

theorem State.Quiet.changes {s t : State} (h : s.Quiet t) : s.Changes t := (State.Change.quiet h).changes

/-- What every change keeps, a sequence of changes keeps. -/
theorem State.Changes.keeps {P : State → Prop} (h : ∀ s t, s.Change t → P s → P t) {s t : State}
    (hc : s.Changes t) (hs : P s) : P t := by
  induction hc with
  | refl => exact hs
  | tail _ hbc ih => exact h _ _ hbc ih

/-- A sequence of changes, the last of them given first. -/
theorem State.Changes.after {s t u : State} (h : t.Changes u) (h' : s.Changes t) : s.Changes u := h'.trans h

/-! ## Changes of the batches -/

/-- No retry count rises. -/
def ChanDelivery.Calm (d d' : ChanDelivery) : Prop := ∀ b, (d'.slot b).retry ≤ (d.slot b).retry

theorem ChanDelivery.Calm.of_slots {d d' : ChanDelivery} (h : d'.slots = d.slots) : d.Calm d' := fun b => by
  simp [ChanDelivery.slot, h]

theorem ChanDelivery.Calm.trans {d d' d'' : ChanDelivery} (h : d.Calm d') (h' : d'.Calm d'') : d.Calm d'' :=
  fun b => (h' b).trans (h b)

/-- A slot replaced by one with no higher retry count, the orders and counters at will. -/
theorem ChanDelivery.Calm.of_set {d d' : ChanDelivery} (b : BatchId) (t : BatchSlot)
    (hs : d'.slots = d.slots.set b.val t) (h : t.retry ≤ (d.slot b).retry) : d.Calm d' := fun a => by
  have hd : d'.slot a = (d.modSlot b fun _ => t).slot a := by
    simp [ChanDelivery.slot, ChanDelivery.modSlot, hs]
  rw [hd, ChanDelivery.modSlot_slot]
  split
  · next e => rw [e]; exact h
  · exact le_rfl

/-- Every slot freed. -/
theorem ChanDelivery.Calm.of_free {d d' : ChanDelivery} (h : d'.slots = Vector.replicate 4 .free) : d.Calm d' :=
  fun b => by simp [ChanDelivery.slot, h, BatchSlot.free]

/-- A delivery record replaced by one in which no retry count is higher. -/
theorem State.changes_modDeliv (s : State) (c : ChanId) (f : ChanDelivery → ChanDelivery)
    (h : (s.deliv c).Calm (f (s.deliv c))) : s.Changes (s.modDeliv c f) :=
  (State.Change.deliver c f fun b => .inl (h b)).changes

theorem ChanDelivery.makeReady_calm (d : ChanDelivery) (b : BatchId) (final : Bool) :
    d.Calm (d.makeReady b final) := .of_set b _ rfl le_rfl

theorem ChanDelivery.openBatch_calm (d : ChanDelivery) (b : BatchId) (session : Byte) (i : OutIndex)
    (v : Output) : d.Calm (d.openBatch b session i v) := .of_set b _ rfl (Nat.zero_le _)

theorem ChanDelivery.place_calm {d d' : ChanDelivery} {session : Byte} {i : OutIndex} {v : Output}
    {b : BatchId} (h : d.place session i v = some (b, d')) : d.Calm d' := by
  unfold ChanDelivery.place at h
  split at h
  · obtain ⟨-, rfl⟩ := Prod.mk.inj (Option.some.inj h)
    exact .of_set _ _ rfl le_rfl
  · split at h
    · obtain ⟨-, rfl⟩ := Prod.mk.inj (Option.some.inj h)
      exact d.openBatch_calm _ _ _ _
    · exact nomatch h

theorem ChanDelivery.finishAppend_calm (d : ChanDelivery) (b : BatchId) (fl : Flags) (n : Nat) :
    d.Calm (d.finishAppend b fl n) := by
  have carried : d.Calm (d.modSlot b fun t => { t with flags := t.flags.carry fl }) := .of_set b _ rfl le_rfl
  unfold ChanDelivery.finishAppend
  dsimp only
  split
  · exact carried.trans (ChanDelivery.makeReady_calm _ _ _)
  · exact carried

theorem ChanDelivery.freeSlots_calm (d : ChanDelivery) (bs : List BatchId) : d.Calm (d.freeSlots bs) := by
  unfold ChanDelivery.freeSlots
  induction bs generalizing d with
  | nil => exact .of_slots rfl
  | cons b bs ih => exact (ChanDelivery.Calm.of_set b _ rfl (Nat.zero_le _)).trans (ih _)

theorem ChanDelivery.send_calm (d : ChanDelivery) (b : BatchId) (auto : Bool) : d.Calm (d.send b auto) := by
  unfold ChanDelivery.send
  dsimp only
  split
  · exact .of_set b _ rfl le_rfl
  · exact .of_set b _ rfl (Nat.zero_le _)

/-! ## Changes by the delivery unit -/

/-- Flags, output index and counters of a channel replaced. -/
theorem State.changes_tally (s : State) (c : ChanId) (f : Channel → Channel)
    (h : ∀ ch, f ch = { ch with
      flags := (f ch).flags, outIndex := (f ch).outIndex, counters := (f ch).counters } := by intro ch; rfl) :
    s.Changes (s.modChan c f) :=
  (State.Change.move c f (.tally (h _))).changes

theorem State.changes_raiseAll (s : State) (ns : List Notice) : s.Changes (s.raiseAll ns) :=
  State.Quiet.changes {}

theorem State.changes_modLink (s : State) (f : Link → Link) : s.Changes (s.modLink f) := State.Quiet.changes {}

theorem State.changes_resend (s : State) (l : List (ChanId × BatchId)) : s.Changes { s with resend := l } :=
  State.Quiet.changes ⟨rfl, fun _ => rfl, rfl, rfl, rfl, rfl, rfl⟩

theorem State.loseOutput_changes (s : State) (c : ChanId) : s.Changes (s.loseOutput c).1 := by
  unfold State.loseOutput
  dsimp only
  exact .after (State.changes_tally _ c _) (s.changes_modDeliv c _ (.of_slots rfl))

theorem State.append_changes (s : State) (c : ChanId) (i : OutIndex) (v : Output) :
    s.Changes (s.append c i v).1 := by
  unfold State.append
  dsimp only
  split
  · next b d h =>
    dsimp only
    exact .after (State.changes_tally _ c _)
      (s.changes_modDeliv c _ ((ChanDelivery.place_calm h).trans (d.finishAppend_calm _ _ _)))
  · exact s.loseOutput_changes c

theorem State.drainReport_changes (s : State) (c : ChanId) : s.Changes (s.drainReport c).1 := by
  unfold State.drainReport
  split
  · next h hc => exact (State.Change.move c (fun ch => { ch with
      state := .ready, stopCause := none, opSlot := ch.opSlot.finishOp .stop .ok }) (.drained h hc)).changes
  · next h hc => exact (State.Change.move c (fun ch => { ch with state := .ready, stopCause := none })
      (.stopped h hc)).changes
  · exact .refl s

theorem State.checkDrain_changes (s : State) (c : ChanId) : s.Changes (s.checkDrain c).1 := by
  unfold State.checkDrain
  split
  · exact .after (State.drainReport_changes _ c) (s.changes_modDeliv c _ (.of_slots rfl))
  · exact .refl s

theorem State.closeFilling_changes (s : State) (c : ChanId) : s.Changes (s.closeFilling c).1 := by
  unfold State.closeFilling
  dsimp only
  split
  · exact s.changes_modDeliv c (fun d => d.makeReady _ true) (ChanDelivery.makeReady_calm _ _ _)
  · split
    · exact .refl s
    · exact s.changes_modDeliv c (fun d => { d with pendingLost := 0 }) (.of_slots rfl)

theorem State.closeBatch_changes (s : State) (c : ChanId) : s.Changes (s.closeBatch c).1 := by
  unfold State.closeBatch
  split
  · exact .refl s
  · have watched : (s.closeFilling c).1.Changes
        ((s.closeFilling c).1.modDeliv c fun d => { d with drainWatch := true }) :=
      State.changes_modDeliv _ c _ (.of_slots rfl)
    exact ((s.closeFilling_changes c).trans watched).trans (State.checkDrain_changes _ c)

theorem State.closeIfStopping_changes (s : State) (c : ChanId) : s.Changes (s.closeIfStopping c).1 := by
  unfold State.closeIfStopping
  split
  · exact s.closeBatch_changes c
  · exact .refl s

theorem State.discard_changes (s : State) (c : ChanId) : s.Changes (s.discard c) :=
  (s.changes_modDeliv c (fun d => { d with
    slots := Vector.replicate 4 .free, pendingLost := 0, readyOrder := [], inflightOrder := []
    drainWatch := false }) (.of_free rfl)).trans (State.changes_resend _ _)

theorem State.acknowledge_changes (s : State) (c : ChanId) (q : Byte) : s.Changes (s.acknowledge c q).1 := by
  unfold State.acknowledge
  split
  · exact .refl s
  · dsimp only
    refine .after (State.checkDrain_changes _ c) (.after (State.changes_resend _ _) ?_)
    exact s.changes_modDeliv c _ ((ChanDelivery.freeSlots_calm _ _).trans (.of_slots rfl))

theorem State.dropBatch_changes (s : State) (c : ChanId) (b : BatchId) : s.Changes (s.dropBatch c b).1 := by
  unfold State.dropBatch Raising.andThen
  dsimp only
  refine .after (State.checkDrain_changes _ c) (.after (State.changes_tally _ c _) ?_)
  exact s.changes_modDeliv c _ (.of_set b _ rfl (Nat.zero_le _))

theorem State.startTimer_changes (s : State) (c : ChanId) (b : BatchId) : s.Changes (s.startTimer c b) := by
  unfold State.startTimer
  exact s.changes_modDeliv c _ (.of_set b _ rfl le_rfl)

theorem State.batchSent_changes (s : State) (c : ChanId) (b : BatchId) : s.Changes (s.batchSent c b).1 := by
  unfold State.batchSent
  dsimp only
  split
  · split
    · exact s.startTimer_changes c b
    · exact .after (State.checkDrain_changes _ c)
        (s.changes_modDeliv c _ (.of_set b _ rfl (Nat.zero_le _)))
    · exact .refl s
    · exact .refl s
  · exact .refl s

theorem State.batchAbandoned_changes (s : State) (c : ChanId) (b : BatchId) :
    s.Changes (s.batchAbandoned c b) := by
  unfold State.batchAbandoned
  dsimp only
  split
  · split
    · exact s.startTimer_changes c b
    · exact s.changes_modDeliv c _ (.of_set b _ rfl le_rfl)
    · exact .refl s
    · exact .refl s
  · exact .refl s

/-! ## Changes by the watch unit -/

/-- An evaluation keeps a watch's run count below the count it runs towards (R88). -/
theorem Watch.evaluate_law (w : Watch) (v : Output) (h : w.Law) : (w.evaluate v).1.Law := by
  obtain ⟨⟨h1, h2, h3, h4⟩, off, clear, tripped⟩ := h
  unfold Watch.evaluate
  repeat' split
  all_goals constructor <;> simp_all <;> omega

theorem Watch.restart_law (c : ChanId) (w : Watch) (h : w.Law) : (w.restart c).Law := by
  unfold Watch.restart
  split
  · exact ⟨h.counts, (nomatch ·), fun _ => h.counts.1, (nomatch ·)⟩
  · exact h

theorem Watch.off_law (w : Watch) (h : w.Law) : Watch.Law { w with state := .off, run := 0 } :=
  ⟨h.counts, fun _ => rfl, (nomatch ·), (nomatch ·)⟩

theorem Evaluation.step_changes (c : ChanId) (i : OutIndex) (v : Output) (e : Evaluation) (w : WatchId) :
    e.state.Changes (e.step c i v w).state := by
  have h : e.state.Changes (e.state.modWatch w fun _ => ((e.state.watch w).evaluate v).1) :=
    (State.Change.watch w _ (Watch.evaluate_law _ v)).changes
  unfold Evaluation.step
  dsimp only
  split
  · split <;> exact h
  · exact .refl _

theorem State.evaluate_changes (s : State) (c : ChanId) (i : OutIndex) (v : Output) :
    s.Changes (s.evaluate c i v).state := by
  suffices h : ∀ (ws : List WatchId) (e : Evaluation),
      e.state.Changes (ws.foldl (Evaluation.step c i v) e).state from h _ ⟨s, [], []⟩
  intro ws e
  induction ws generalizing e with
  | nil => exact .refl _
  | cons w ws ih => exact (e.step_changes c i v w).trans (ih _)

/-- The record that a WATCH_SET payload asks for obeys the watch law (R85). -/
theorem watchOperands_law {p : List Byte} {w : WatchId} {r : Watch} (h : watchOperands p = some (w, r)) :
    r.Law := by
  unfold watchOperands at h
  simp only [Option.bind_eq_bind, Option.bind_eq_some_iff] at h
  obtain ⟨w', -, c, -, k, -, a, -, low, -, high, -, h⟩ := h
  split at h
  · next hb =>
    obtain ⟨-, rfl⟩ := Prod.mk.inj (Option.some.inj h)
    simp only [Bool.and_eq_true, bne_iff_ne] at hb
    have nonzero (x : Byte) (hx : x ≠ 0) : 1 ≤ x.toNat ∧ x.toNat ≤ 255 := by bv_omega
    obtain ⟨⟨-, h1⟩, h2⟩ := hb
    exact ⟨⟨(nonzero _ h1).1, (nonzero _ h1).2, (nonzero _ h2).1, (nonzero _ h2).2⟩,
      (nomatch ·), fun _ => (nonzero _ h1).1, (nomatch ·)⟩
  · exact nomatch h

end Sys2Proof.Machine
end

section
/-! PROOFS. Each operation of the channel controller, the sum engine, the transmit arbiter and the link
controller is a sequence of changes. -/

namespace Sys2Proof.Machine

/-! ## Banks, memory, notices and the link: nothing that the laws of the channels speak of -/

theorem State.dropRef?_quiet (s : State) (o : Option BankId) : s.Quiet (s.dropRef? o) where

theorem State.strike_quiet (s : State) (c : ChanId) : s.Quiet (s.strike c) :=
  ⟨rfl, fun _ => rfl, rfl, rfl, rfl, rfl, rfl⟩

theorem State.startDispatch_quiet (s : State) (l : LaneId) (x : FifoEntry) : s.Quiet (s.startDispatch l x) where
  rings c := by
    show ((s.modLane l Lane.popHead).setHolds (s.snapshot l x.slot) true).ring c = s.ring c
    simp

theorem State.markDamage_quiet (s : State) (d : Dispatch) (c : ChanId) (b : BankId) (k : Nat) :
    s.Quiet (s.markDamage d c b k) where
  rings c := by simp [State.markDamage]

/-! ## Claims on a channel -/

theorem State.swapPoint_changes (s : State) (c : ChanId) : s.Changes (s.swapPoint c) := by
  unfold State.swapPoint
  split
  · exact .refl s
  · next b h =>
    have dropped := (s.dropRef?_quiet (s.chan c).active).changes
    refine dropped.trans (State.Change.changes (.move c _ ?_))
    exact .swapPoint b (by simpa using h)

/-- A staged bank released and the record replaced is one replacement of the record. -/
theorem State.releaseStaged_modChan (s : State) (c : ChanId) (f : Channel → Channel) :
    (s.releaseStaged c).modChan c f =
      (s.dropRef? (s.chan c).staged).modChan c fun ch => f { ch with staged := none } :=
  State.modChan_modChan _ _ _ _

theorem State.stopRequest_changes (s : State) (c : ChanId) : s.Changes (s.stopRequest c) := by
  unfold State.stopRequest
  split
  · next h =>
    have ignored (t : State) : t.Changes (t.ignoreRequests c) := (State.Change.ignore List.filter_sublist).changes
    refine ((s.dropRef?_quiet (s.chan c).staged).changes.trans (ignored _)).trans ?_
    rw [State.releaseStaged_modChan]
    exact (State.Change.stop (s := (s.dropRef? (s.chan c).staged).ignoreRequests c) c
      (fun ch => { ch with
        staged := none, state := .stopping, stopCause := some .watch
        opSlot := ch.opSlot.finishOp .swap .cancelled }) (.watch (by simpa using h)) (by simp)).changes
  all_goals exact .refl s

theorem State.endRun_changes (s : State) (c : ChanId) (st : ChanState) (ds : DoneStatus)
    (h : (s.chan c).state.inRun = true) (hst : st = .ready ∨ st = .faulted) :
    s.Changes (s.endRun c st ds) := by
  unfold State.endRun
  rw [State.releaseStaged_modChan]
  exact ((s.discard_changes c).trans (State.dropRef?_quiet _ _).changes).trans
    (State.Change.changes (.move c _ (.ended st ds (by simpa using h) hst)))

theorem State.faultClaim_changes (s : State) (c : ChanId) (cause : FaultCause) :
    s.Changes (s.faultClaim c cause).1 := by
  unfold State.faultClaim
  split
  · next h => exact s.endRun_changes c _ _ h (.inr rfl)
  · exact .refl s

theorem State.swapAndStop_changes (s : State) (c : ChanId) (before after : Bool) :
    s.Changes (s.swapAndStop c before after) := by
  have stop (t : State) (b : Bool) : t.Changes (if b then t.stopRequest c else t) := by
    split
    · exact t.stopRequest_changes c
    · exact .refl t
  exact ((stop s before).trans (State.swapPoint_changes _ c)).trans (stop _ after)

theorem State.leaveRequests_changes (s : State) (c : ChanId) (ws : List WatchId) :
    s.Changes (s.leaveRequests c ws) := by
  unfold State.leaveRequests
  split
  · next h => exact (State.Change.request c h.2.1 h.2.2).changes
  · exact .refl s

/-! ## Configuration and runs -/

theorem indexOf_lt {n : Nat} {b : Byte} {i : Fin n} (h : indexOf n b = some i) : b.toNat < n :=
  (indexOf_eq_some.1 h).symm ▸ i.isLt

theorem inRange_eq_some {lo hi n k : Nat} : inRange lo hi n = some k ↔ lo ≤ n ∧ n ≤ hi ∧ k = n := by
  unfold inRange
  split <;> simp <;> omega

/-- A CHAN_CONFIG payload asks for values in their ranges only (R1). -/
theorem configOperands_inRange {p : List Byte} {g : ChanConfig} (h : configOperands p = some g) : g.InRange := by
  unfold configOperands at h
  simp only [Option.bind_eq_bind, Option.bind_eq_some_iff, inRange_eq_some, Option.some.injEq] at h
  obtain ⟨_, -, _, -, _, ⟨d1, d2, rfl⟩, _, ⟨-, s2, rfl⟩, _, -, _, -, _, ⟨b1, b2, rfl⟩, _, ⟨w1, w2, rfl⟩, _, -,
    _, -, _, ⟨-, r2, rfl⟩, _, ⟨a1, a2, rfl⟩, rfl⟩ := h
  exact ⟨⟨d1, d2⟩, s2, ⟨b1, b2⟩, ⟨w1, w2⟩, ⟨a1, a2⟩, r2⟩

theorem ChanConfig.default_inRange : ChanConfig.default.InRange := by
  constructor <;> decide

theorem State.bind_changes (s : State) (c : ChanId) (b : BankId)
    (h : (s.chan c).state = .idle ∨ (s.chan c).state = .ready) : s.Changes (s.bind c b) := by
  have counted : s.Changes ((s.addRef b).dropRef? (s.chan c).active) :=
    State.Quiet.changes {}
  exact counted.trans (State.Change.changes (.move c _ (.bind b (by simpa using h))))

theorem State.start_changes (s : State) (c : ChanId) (h : (s.chan c).state = .ready) :
    s.Changes (s.start c) := by
  unfold State.start
  refine .after (State.Change.changes (.restart c)) ?_
  exact .after (State.changes_modDeliv _ c _ (.of_slots rfl)) (State.Change.changes (.move c _ (.start h)))

theorem State.closeAtStop_changes (s : State) (c : ChanId) : s.Changes (s.closeAtStop c).1 := by
  unfold State.closeAtStop
  split
  · exact .refl s
  · exact s.closeBatch_changes c

theorem State.stopChannel_changes (s : State) (c : ChanId) (tag : Byte) (h : (s.chan c).state = .running)
    (ho : (s.chan c).opSlot = .none) : s.Changes (s.stopChannel c tag).1 := by
  have ignored : s.Changes (s.ignoreRequests c) := (State.Change.ignore List.filter_sublist).changes
  have stopped := (State.Change.stop (s := s.ignoreRequests c) c (fun ch => { ch with
    state := .stopping, stopCause := some .command, opSlot := .pending .stop tag })
    (.command tag h ho) (by simp)).changes
  exact (ignored.trans stopped).trans (State.closeAtStop_changes _ c)

theorem State.takeStopRequest_changes (s : State) : s.Changes s.takeStopRequest.1 := by
  unfold State.takeStopRequest
  split
  · exact .refl s
  · next c rest h =>
    have taken : s.Changes { s with stopRequests := rest } :=
      (State.Change.ignore (h ▸ List.sublist_cons_self c rest)).changes
    dsimp only
    split
    · exact (taken.trans (State.stopRequest_changes _ c)).trans (State.closeAtStop_changes _ c)
    · exact taken

theorem State.clearChannel_changes (s : State) (c : ChanId) (h : (s.chan c).state.inRun = false) :
    s.Changes (s.clearChannel c) := by
  have hs (g : ChanConfig) : (((s.dropRef? (s.chan c).active).configure c g).chan c).state = (s.chan c).state := by
    simp [State.configure]
  have defaults : (s.dropRef? (s.chan c).active).Changes ((s.dropRef? (s.chan c).active).configure c .default) :=
    State.Change.changes (.configure c _ (by simpa using h) ChanConfig.default_inRange)
  exact ((s.dropRef?_quiet _).changes.trans defaults).trans
    (State.Change.changes (.move c _ (.clear (by rw [hs]; exact h))))

theorem State.swapNow_changes (s : State) (c : ChanId) (b : BankId) (tag : Byte)
    (h : (s.chan c).state = .ready) (ho : (s.chan c).opSlot = .none) : s.Changes (s.swapNow c b tag) := by
  have counted : s.Changes ((s.addRef b).dropRef? (s.chan c).active) := State.Quiet.changes {}
  exact counted.trans (State.Change.changes (.move c _ (.swapNow b tag (by simpa using h) (by simpa using ho))))

theorem State.stageSwap_changes (s : State) (c : ChanId) (b : BankId) (tag : Byte)
    (h : (s.chan c).state = .running) (ho : (s.chan c).opSlot = .none) : s.Changes (s.stageSwap c b tag) := by
  have counted : s.Changes (s.addRef b) := State.Quiet.changes {}
  exact counted.trans (State.Change.changes (.move c _ (.stageSwap b tag (by simpa using h) (by simpa using ho))))

/-! ## The sum engine -/

theorem State.upsetHistory_changes (s : State) (d : Dispatch) (bad : List (ChanId × Fin 256)) :
    s.Changes (s.upsetHistory d bad) := by
  unfold State.upsetHistory
  induction bad generalizing s with
  | nil => exact .refl s
  | cons q bad ih =>
    refine State.Changes.trans ?_ (ih _)
    dsimp only
    split
    · exact (State.Change.ring q.1 _ (.inl (by simp))).changes
    · exact .refl s

theorem State.takeSample_changes (s : State) (c : ChanId) (x : FifoEntry) : s.Changes (s.takeSample c x) := by
  unfold State.takeSample
  refine .after (State.Change.changes (.move c _ (.sample rfl))) ?_
  refine (State.Change.ring c (fun r => (⟨x.value, true⟩ :: r).take Config.ringSize) (.inr ?_)).changes
  simp [Config.ringSize]

theorem State.handOn_changes (s : State) (c : ChanId) (r : Result) (taps : Nat) (choice : CompletionChoice) :
    s.Changes (s.handOn c r taps choice).1 := by
  have flagged : s.Changes (s.setFlags c r taps) := s.changes_tally c _
  have appended := flagged.trans (State.append_changes _ c (s.chan c).outIndex r.value)
  have evaluated := appended.trans (State.evaluate_changes _ c (s.chan c).outIndex r.value)
  have counted := evaluated.trans (State.changes_tally _ c fun ch => { ch with outIndex := ch.outIndex + 1 })
  exact (counted.trans (State.swapAndStop_changes _ c _ _)).trans (State.leaveRequests_changes _ c _)

theorem State.settlePassing_changes (s : State) (choice : CompletionChoice) (d : Dispatch) (e : SnapEntry) :
    s.Changes (s.settlePassing choice d e).1 := by
  have sampled := s.takeSample_changes e.channel d.sample
  unfold State.settlePassing
  refine .after (State.closeIfStopping_changes _ _) ?_
  split
  · split
    · exact sampled.trans (State.handOn_changes _ _ _ _ _)
    · exact sampled
  · exact sampled

theorem State.completeEntry_changes (s : State) (choice : CompletionChoice) (d : Dispatch) (e : SnapEntry) :
    s.Changes (s.completeEntry choice d e).1 := by
  unfold State.completeEntry State.settleEntry
  split
  · split
    · exact s.faultClaim_changes _ _
    · exact s.settlePassing_changes choice d e
  · exact s.closeIfStopping_changes _

theorem State.settleAll_changes (choice : CompletionChoice) (d : Dispatch) (es : List SnapEntry) (s : State) :
    s.Changes (State.settleAll choice d es s).1 := by
  induction es generalizing s with
  | nil => exact .refl s
  | cons e es ih => exact (s.completeEntry_changes choice d e).trans (ih _)

theorem State.complete_changes (s : State) (d : Dispatch) (choice : CompletionChoice) :
    s.Changes (s.complete d choice) := by
  have freed (t : State) : t.Changes ((t.setHolds d.snapshot false).setDispatch none) := State.Quiet.changes {}
  have damaged (t : State) : t.Changes (t.damageFound d) := State.Quiet.changes {}
  unfold State.complete
  refine .after (State.changes_raiseAll _ _) (.after (freed _) (.after (State.settleAll_changes _ _ _ _) ?_))
  exact (s.upsetHistory_changes d _).trans (damaged _)

/-! ## The transmit arbiter -/

theorem State.transmit_changes (s : State) (src : Source) (f : Frame) : s.Changes (s.transmit src f) :=
  State.Quiet.changes ⟨rfl, fun _ => rfl, rfl, rfl, rfl, rfl, rfl⟩

theorem State.startNotice_changes (s : State) : s.Changes s.startNotice := by
  unfold State.startNotice
  split
  · exact .refl s
  · exact .after (State.transmit_changes _ _ _) (State.Quiet.changes ⟨rfl, fun _ => rfl, rfl, rfl, rfl, rfl, rfl⟩)

theorem State.startResend_changes (s : State) (c : ChanId) (b : BatchId) : s.Changes (s.startResend c b) := by
  unfold State.startResend
  refine .after (State.transmit_changes _ _ _) (.after (State.changes_tally _ c _) ?_)
  exact .after (State.changes_modDeliv _ c _ (.of_set b _ rfl le_rfl)) (State.changes_resend _ _)

theorem State.startBatch_changes (s : State) (c : ChanId) (b : BatchId) : s.Changes (s.startBatch c b) := by
  unfold State.startBatch
  refine .after (State.transmit_changes _ _ _) ?_
  exact .after (State.changes_modDeliv _ c _ (ChanDelivery.send_calm _ _ _)) (State.Change.toTail c).changes

theorem State.startFrom_changes (s : State) (src : Source) : s.Changes (s.startFrom src) := by
  unfold State.startFrom
  split
  · exact s.transmit_changes _ _
  · split
    · exact s.transmit_changes _ _
    · exact .refl s
  · exact s.transmit_changes _ _
  · exact s.startNotice_changes
  · exact s.startResend_changes _ _
  · exact s.startBatch_changes _ _

theorem State.performDeviceReset_changes (s : State) : s.Changes s.performDeviceReset :=
  (State.Change.reset s).changes.trans (State.changes_modLink _ _)

theorem State.performPowerReset_changes (s : State) (cause : ResetCause) (hrxSpace : Bool) :
    s.Changes (s.performPowerReset cause hrxSpace) :=
  (State.Change.reset s).changes.trans (State.changes_modLink _ _)

theorem State.replyEffect_changes (s : State) (r : Reply) : s.Changes (s.replyEffect r) := by
  unfold State.replyEffect
  split
  · split
    · exact s.changes_modLink _
    · exact .refl s
  · split
    · exact s.performDeviceReset_changes
    · exact .refl s

theorem State.replySent_changes (s : State) : s.Changes s.replySent := by
  unfold State.replySent
  split
  · exact .after (State.replyEffect_changes _ _) (s.changes_modLink _)
  · exact .refl s

theorem State.sent_changes (s : State) (src : Source) : s.Changes (s.sent src).1 := by
  unfold State.sent
  split
  · exact State.Quiet.changes {}
  · exact s.replySent_changes
  · exact (State.Change.move _ (fun ch => { ch with
      opSlot := if ch.opSlot.isUnreported then .none else ch.opSlot }) (.reported _)).changes
  · exact .refl s
  · exact s.batchSent_changes _ _
  · exact s.batchSent_changes _ _

theorem State.freeTransmitter_changes (s : State) : s.Changes s.freeTransmitter :=
  State.Quiet.changes ⟨rfl, fun _ => rfl, rfl, rfl, rfl, rfl, rfl⟩

theorem State.abandonTransmission_changes (s : State) : s.Changes s.abandonTransmission := by
  unfold State.abandonTransmission
  split
  · exact .refl s
  · refine s.freeTransmitter_changes.trans ?_
    unfold State.abandon
    split
    · exact .refl _
    · exact .refl _
    · exact .refl _
    · exact State.Quiet.changes ⟨rfl, fun _ => rfl, rfl, rfl, rfl, rfl, rfl⟩
    · exact State.batchAbandoned_changes _ _ _
    · exact State.batchAbandoned_changes _ _ _

theorem State.performLinkReset_changes (s : State) : s.Changes s.performLinkReset :=
  s.abandonTransmission_changes.trans (State.changes_modLink _ _)

/-! ## The link controller -/

theorem State.checkFrame_changes (s : State) (len : Byte) (body : List Byte) :
    s.Changes (s.checkFrame len body).1 := by
  unfold State.checkFrame State.route
  dsimp only
  split
  · split
    · split
      · exact s.acknowledge_changes _ _
      · exact State.Quiet.changes {}
    · exact State.Quiet.changes {}
  · exact State.Quiet.changes {}

theorem State.takeByte_changes (s : State) (b : Byte) : s.Changes (s.takeByte b).1 := by
  unfold State.takeByte
  split
  · split
    · exact State.Quiet.changes {}
    · exact .refl s
  · split
    · exact State.Quiet.changes {}
    · exact State.Quiet.changes {}
  · dsimp only
    split
    · exact State.Quiet.changes {}
    · exact (s.changes_modLink _).trans (State.checkFrame_changes _ _ _)

end Sys2Proof.Machine
end

section
/-! PROOFS. What the owner of every command keeps, and what every command does: each answers a next state, by a
sequence of changes. -/

namespace Sys2Proof.Machine

/-! ## The owners of the commands (R5, R31, R136) -/

/-- What every owner keeps: the queue of replies and rx_discards, and on a refusal other than CHECK_FAIL the whole
state; and its change of state is a sequence of changes. -/
structure Answer.Fair (s : State) (a : Answer) : Prop where
  replies  : a.state.link.replies = s.link.replies
  discards : a.state.link.rxDiscards = s.link.rxDiscards
  refusal  : a.status = .ok ∨ a.status = .accepted ∨ a.status = .checkFail ∨ (a.state = s ∧ a.raised = [])
  changes  : s.Changes a.state

/-- An answer that leaves the state and raises nothing. -/
theorem Answer.Fair.same (s : State) (status : Status) (body : List Byte) :
    Answer.Fair s ⟨s, status, body, []⟩ := ⟨rfl, rfl, .inr (.inr (.inr ⟨rfl, rfl⟩)), .refl s⟩

theorem Answer.Fair.refuse (s : State) (c : Command) (status : Status) :
    Answer.Fair s (.refuse c status s) := .same s _ _

/-- A command carried out that leaves the link controller. -/
theorem Answer.Fair.accept {s : State} {a : Answer} (h : s.Changes a.state) (hl : a.state.link = s.link)
    (hs : a.status = .ok ∨ a.status = .accepted ∨ a.status = .checkFail) : Answer.Fair s a :=
  ⟨by rw [hl], by rw [hl], by tauto, h⟩

theorem pingOwner_fair (p : List Byte) (s : State) : (pingOwner p s).Fair s := .same s _ _

theorem deviceResetOwner_fair (s : State) : (deviceResetOwner s).Fair s :=
  ⟨rfl, rfl, .inl rfl, s.changes_modLink fun k => { k with resetPending := true }⟩

theorem linkSetOwner_fair (p : List Byte) (s : State) : (linkSetOwner p s).Fair s := by
  unfold linkSetOwner
  split
  · exact .same s _ _
  · exact .refuse s _ _

theorem deviceQueryOwner_fair (p : List Byte) (s : State) : (deviceQueryOwner p s).Fair s := by
  unfold deviceQueryOwner
  split
  · exact ⟨rfl, rfl, .inl rfl, s.changes_modLink fun k => { k with counters := ⟨0, 0, 0, 0, 0⟩ }⟩
  · exact .same s _ _

theorem bankOpenOwner_fair (p : List Byte) (s : State) : (bankOpenOwner p s).Fair s := by
  unfold bankOpenOwner
  split
  · exact .refuse s _ _
  · dsimp only
    repeat' split
    · exact .refuse s _ _
    · exact .refuse s _ _
    · exact .refuse s _ _
    · exact .accept (State.Quiet.changes {}) rfl (.inl rfl)

theorem bankDataOwner_fair (p : List Byte) (s : State) : (bankDataOwner p s).Fair s := by
  unfold bankDataOwner
  split
  · exact .refuse s _ _
  · dsimp only
    repeat' split
    · exact .refuse s _ _
    · exact .same s _ _
    · exact .same s _ _
    · exact .accept (State.Quiet.changes {}) (by simp) (.inl rfl)

theorem bankSealOwner_fair (p : List Byte) (upsets : List (Fin 256 × Sample)) (s : State) :
    (bankSealOwner p upsets s).Fair s := by
  unfold bankSealOwner
  split
  · exact .refuse s _ _
  · dsimp only
    repeat' split
    · exact .refuse s _ _
    · exact .refuse s _ _
    · exact .accept (State.Quiet.changes {}) (by simp) (.inl rfl)
    · exact .accept (State.Quiet.changes {}) (by simp) (.inr (.inr rfl))

theorem bankFreeOwner_fair (p : List Byte) (s : State) : (bankFreeOwner p s).Fair s := by
  unfold bankFreeOwner
  split
  · exact .refuse s _ _
  · repeat' split
    · exact .refuse s _ _
    · exact .refuse s _ _
    · exact .refuse s _ _
    · exact .accept (State.Quiet.changes (t := s.freeBank _) {}) rfl (.inl rfl)

theorem bankQueryOwner_fair (p : List Byte) (s : State) : (bankQueryOwner p s).Fair s := by
  unfold bankQueryOwner
  split
  · exact .refuse s _ _
  · exact .same s _ _

theorem laneSetOwner_fair (p : List Byte) (s : State) : (laneSetOwner p s).Fair s := by
  unfold laneSetOwner
  split
  · exact .refuse s _ _
  · next l _ =>
    split
    · exact .refuse s _ _
    · split
      · exact .refuse s _ _
      · next enable _ =>
        dsimp only
        split
        · exact .accept (State.Quiet.changes
            (t := s.modLane l fun r => r.configure enable (byteAt p 2).toNat) {}) rfl (.inl rfl)
        · exact .refuse s _ _

theorem laneQueryOwner_fair (p : List Byte) (s : State) : (laneQueryOwner p s).Fair s := by
  unfold laneQueryOwner
  split
  · exact .refuse s _ _
  · split
    · exact .accept (State.Quiet.changes {}) rfl (.inl rfl)
    · exact .same s _ _

theorem chanConfigOwner_fair (p : List Byte) (s : State) : (chanConfigOwner p s).Fair s := by
  have settled (c : ChanId) (h : (s.chan c).state.inRun = false) : Answer.Fair s (match configOperands p with
      | none => .refuse .chanConfig .badArg s
      | some g => .done .ok (s.configure c g)) := by
    split
    · exact .refuse s _ _
    · next g hg =>
      exact .accept (State.Change.changes (.configure c g h (configOperands_inRange hg))) rfl (.inl rfl)
  unfold chanConfigOwner
  split
  · exact .refuse s _ _
  · next c _ =>
    split
    · next h => exact settled c (by rw [h]; rfl)
    · next h => exact settled c (by rw [h]; rfl)
    all_goals exact .refuse s _ _

theorem chanBindOwner_fair (p : List Byte) (s : State) : (chanBindOwner p s).Fair s := by
  have settled (c : ChanId) (h : (s.chan c).state = .idle ∨ (s.chan c).state = .ready) :
      Answer.Fair s (match indexOf 32 (byteAt p 1) with
        | none => .refuse .chanBind .badArg s
        | some b =>
          match s.judge b with
          | some refusal => .refuse .chanBind refusal s
          | none => .done .ok (s.bind c b)) := by
    split
    · exact .refuse s _ _
    · split
      · exact .refuse s _ _
      · exact .accept (s.bind_changes c _ h) (s.bind_link c _) (.inl rfl)
  unfold chanBindOwner
  split
  · exact .refuse s _ _
  · next c _ =>
    split
    · next h => exact settled c (.inl h)
    · next h => exact settled c (.inr h)
    all_goals exact .refuse s _ _

theorem chanStartOwner_fair (p : List Byte) (s : State) : (chanStartOwner p s).Fair s := by
  unfold chanStartOwner
  split
  · exact .refuse s _ _
  · split
    · next h =>
      split
      · exact .accept (s.start_changes _ h) rfl (.inl rfl)
      · exact .refuse s _ _
    all_goals exact .refuse s _ _

theorem chanStopOwner_fair (tag : Byte) (p : List Byte) (s : State) : (chanStopOwner tag p s).Fair s := by
  unfold chanStopOwner
  split
  · exact .refuse s _ _
  · split
    · next h =>
      split
      · exact .refuse s _ _
      · next ho => exact .accept (s.stopChannel_changes _ tag h (not_not.1 ho)) (by simp) (.inr (.inl rfl))
    all_goals exact .refuse s _ _

theorem chanAbortOwner_fair (p : List Byte) (s : State) : (chanAbortOwner p s).Fair s := by
  unfold chanAbortOwner
  split
  · exact .refuse s _ _
  · next c _ =>
    split
    · next h =>
      exact .accept ((s.endRun_changes c .ready .aborted h (.inl rfl)).trans (State.strike_quiet _ c).changes)
        ((s.endRun c .ready .aborted).strike_link c |>.trans (s.endRun_link c _ _)) (.inl rfl)
    · exact .refuse s _ _

theorem chanClearOwner_fair (p : List Byte) (s : State) : (chanClearOwner p s).Fair s := by
  have settled (c : ChanId) (h : (s.chan c).state.inRun = false) :
      Answer.Fair s (.done .ok (s.clearChannel c)) :=
    .accept (s.clearChannel_changes c h) (s.clearChannel_link c) (.inl rfl)
  unfold chanClearOwner
  split
  · exact .refuse s _ _
  · next c _ =>
    split
    · next h => exact settled c (by rw [h]; rfl)
    · next h => exact settled c (by rw [h]; rfl)
    · next h => exact settled c (by rw [h]; rfl)
    all_goals exact .refuse s _ _

/-- A swap carried out or staged, by the channel's state. -/
theorem swap_fair (s : State) (c : ChanId) (b : BankId) (tag : Byte)
    (h : (s.chan c).state = .ready ∨ (s.chan c).state = .running) (ho : (s.chan c).opSlot = .none) :
    Answer.Fair s (.done .accepted
      (if (s.chan c).state = .ready then s.swapNow c b tag else s.stageSwap c b tag)) := by
  split
  · next hr => exact .accept (s.swapNow_changes c b tag hr ho) (s.swapNow_link c b tag) (.inr (.inl rfl))
  · next hr =>
    exact .accept (s.stageSwap_changes c b tag (h.resolve_left hr) ho) (s.stageSwap_link c b tag) (.inr (.inl rfl))

theorem chanSwapOwner_fair (tag : Byte) (p : List Byte) (s : State) : (chanSwapOwner tag p s).Fair s := by
  have taken (c : ChanId) (h : (s.chan c).state = .ready ∨ (s.chan c).state = .running) :
      Answer.Fair s (if (s.chan c).opSlot ≠ .none then .refuse .chanSwap .busy s
        else
          match indexOf 32 (byteAt p 1) with
          | none => .refuse .chanSwap .badArg s
          | some b =>
            match s.judge b with
            | some refusal => .refuse .chanSwap refusal s
            | none =>
              .done .accepted
                (if (s.chan c).state = .ready then s.swapNow c b tag else s.stageSwap c b tag)) := by
    split
    · exact .refuse s _ _
    · next ho =>
      split
      · exact .refuse s _ _
      · split
        · exact .refuse s _ _
        · exact swap_fair s c _ tag h (not_not.1 ho)
  unfold chanSwapOwner
  split
  · exact .refuse s _ _
  · next c _ =>
    split
    · next h => exact taken c (.inl h)
    · next h => exact taken c (.inr h)
    all_goals exact .refuse s _ _

theorem chanQueryOwner_fair (p : List Byte) (s : State) : (chanQueryOwner p s).Fair s := by
  unfold chanQueryOwner
  split
  · exact .refuse s _ _
  · split
    · exact .accept (s.changes_tally _ fun ch => { ch with counters := .zero }) rfl (.inl rfl)
    · exact .same s _ _

theorem chanRotateOwner_fair (p : List Byte) (s : State) : (chanRotateOwner p s).Fair s := by
  unfold chanRotateOwner
  split
  · next k c _ _ =>
    split
    · next h =>
      subst h
      exact .accept (State.Change.toHead c).changes rfl (.inl rfl)
    · exact .refuse s _ _
  · exact .refuse s _ _

theorem watchSetOwner_fair (p : List Byte) (s : State) : (watchSetOwner p s).Fair s := by
  unfold watchSetOwner
  split
  · exact .refuse s _ _
  · next w r h =>
    exact .accept (State.Change.watch w (fun _ => r) fun _ => watchOperands_law h).changes rfl (.inl rfl)

theorem watchOffOwner_fair (p : List Byte) (s : State) : (watchOffOwner p s).Fair s := by
  unfold watchOffOwner
  split
  · exact .refuse s _ _
  · next w _ =>
    exact .accept (State.Change.watch w (fun r => { r with state := .off, run := 0 })
      (Watch.off_law _)).changes rfl (.inl rfl)

theorem watchQueryOwner_fair (p : List Byte) (s : State) : (watchQueryOwner p s).Fair s := by
  unfold watchQueryOwner
  split
  · exact .refuse s _ _
  · exact .same s _ _

/-! ## The taking of a command -/

/-- A row that takes a frame is the taking of it by an owner that keeps what every owner keeps, or BAD_TYPE. -/
theorem exec_taking {i : Instr} {f : Frame} (h : takenFrame i = some f) :
    (∃ (c : Command) (owner : State → Answer), f.type = c.code ∧ (∀ s, (owner s).Fair s) ∧
      ∀ s, exec i s = .next (s.take c f.tag f.payload owner)) ∨
    i = .badType f.type f.tag f.payload := by
  cases i with
  | ping tag p => cases h; exact .inl ⟨.ping, pingOwner p, rfl, pingOwner_fair p, fun _ => rfl⟩
  | deviceReset tag p => cases h; exact .inl ⟨.deviceReset, deviceResetOwner, rfl, deviceResetOwner_fair, fun _ => rfl⟩
  | linkSet tag p => cases h; exact .inl ⟨.linkSet, linkSetOwner p, rfl, linkSetOwner_fair p, fun _ => rfl⟩
  | deviceQuery tag p => cases h; exact .inl ⟨.deviceQuery, deviceQueryOwner p, rfl, deviceQueryOwner_fair p, fun _ => rfl⟩
  | bankOpen tag p => cases h; exact .inl ⟨.bankOpen, bankOpenOwner p, rfl, bankOpenOwner_fair p, fun _ => rfl⟩
  | bankData tag p => cases h; exact .inl ⟨.bankData, bankDataOwner p, rfl, bankDataOwner_fair p, fun _ => rfl⟩
  | bankSeal tag p us => cases h; exact .inl ⟨.bankSeal, bankSealOwner p us, rfl, bankSealOwner_fair p us, fun _ => rfl⟩
  | bankFree tag p => cases h; exact .inl ⟨.bankFree, bankFreeOwner p, rfl, bankFreeOwner_fair p, fun _ => rfl⟩
  | bankQuery tag p => cases h; exact .inl ⟨.bankQuery, bankQueryOwner p, rfl, bankQueryOwner_fair p, fun _ => rfl⟩
  | laneSet tag p => cases h; exact .inl ⟨.laneSet, laneSetOwner p, rfl, laneSetOwner_fair p, fun _ => rfl⟩
  | laneQuery tag p => cases h; exact .inl ⟨.laneQuery, laneQueryOwner p, rfl, laneQueryOwner_fair p, fun _ => rfl⟩
  | chanConfig tag p => cases h; exact .inl ⟨.chanConfig, chanConfigOwner p, rfl, chanConfigOwner_fair p, fun _ => rfl⟩
  | chanBind tag p => cases h; exact .inl ⟨.chanBind, chanBindOwner p, rfl, chanBindOwner_fair p, fun _ => rfl⟩
  | chanStart tag p => cases h; exact .inl ⟨.chanStart, chanStartOwner p, rfl, chanStartOwner_fair p, fun _ => rfl⟩
  | chanStop tag p => cases h; exact .inl ⟨.chanStop, chanStopOwner tag p, rfl, chanStopOwner_fair tag p, fun _ => rfl⟩
  | chanAbort tag p => cases h; exact .inl ⟨.chanAbort, chanAbortOwner p, rfl, chanAbortOwner_fair p, fun _ => rfl⟩
  | chanClear tag p => cases h; exact .inl ⟨.chanClear, chanClearOwner p, rfl, chanClearOwner_fair p, fun _ => rfl⟩
  | chanSwap tag p => cases h; exact .inl ⟨.chanSwap, chanSwapOwner tag p, rfl, chanSwapOwner_fair tag p, fun _ => rfl⟩
  | chanQuery tag p => cases h; exact .inl ⟨.chanQuery, chanQueryOwner p, rfl, chanQueryOwner_fair p, fun _ => rfl⟩
  | chanRotate tag p => cases h; exact .inl ⟨.chanRotate, chanRotateOwner p, rfl, chanRotateOwner_fair p, fun _ => rfl⟩
  | watchSet tag p => cases h; exact .inl ⟨.watchSet, watchSetOwner p, rfl, watchSetOwner_fair p, fun _ => rfl⟩
  | watchOff tag p => cases h; exact .inl ⟨.watchOff, watchOffOwner p, rfl, watchOffOwner_fair p, fun _ => rfl⟩
  | watchQuery tag p => cases h; exact .inl ⟨.watchQuery, watchQueryOwner p, rfl, watchQueryOwner_fair p, fun _ => rfl⟩
  | badType type tag p => cases h; exact .inr rfl
  | _ => exact nomatch h

/-- What a taking leaves: the frame gone and one reply queued; a refusal other than CHECK_FAIL leaves the rest. -/
theorem State.take_answered {s : State} {c : Command} {tag : Byte} {p : List Byte} {owner : State → Answer}
    (h : s.Takes ⟨c.code, tag, p⟩) (ho : ∀ s, (owner s).Fair s) :
    ∃ (status : Status) (body : List Byte),
      (s.take c tag p owner).link.replies = s.link.replies ++ [⟨tag, c.code, status, body, s.link.rxDiscards⟩] ∧
      (status = .ok ∨ status = .accepted ∨ status = .checkFail ∨
        s.take c tag p owner = s.answered tag c.code status body) := by
  have fair : Answer.Fair s.popInbound (s.popInbound.judgeCommand c p owner) := by
    unfold State.judgeCommand
    split
    · exact .same _ _ _
    · split
      · exact .refuse _ _ _
      · exact ho _
  rw [State.take_judged h]
  generalize s.popInbound.judgeCommand c p owner = a at fair
  refine ⟨a.status, a.body, ?_, ?_⟩
  · simp [State.queueReply, State.modLink, fair.replies, fair.discards, State.popInbound]
  · rcases fair.refusal with hs | hs | hs | ⟨hs, hr⟩
    · exact .inl hs
    · exact .inr (.inl hs)
    · exact .inr (.inr (.inl hs))
    · rw [hs, hr, State.raiseAll_nil, State.popInbound_queueReply]
      exact .inr (.inr (.inr rfl))

theorem State.take_changes (s : State) (c : Command) (tag : Byte) (p : List Byte) {owner : State → Answer}
    (ho : ∀ s, (owner s).Fair s) : s.Changes (s.take c tag p owner) := by
  unfold State.take
  split
  · refine .after (State.changes_modLink _ _) (.after (State.changes_raiseAll _ _) ?_)
    refine .after ?_ (s.changes_modLink _ : s.Changes s.popInbound)
    unfold State.judgeCommand
    split
    · exact .refl _
    · split
      · exact .refl _
      · exact (ho _).changes
  · exact .refl s

/-! ## Every command -/

/-- Every command answers a next state, which a sequence of changes leads to. -/
theorem exec_changes (i : Instr) (s : State) : ∃ t, exec i s = .next t ∧ s.Changes t := by
  cases hf : takenFrame i with
  | some f =>
    rcases exec_taking hf with ⟨c, owner, -, fair, h⟩ | h
    · exact ⟨_, h s, s.take_changes c _ _ fair⟩
    · rw [h]
      refine ⟨_, rfl, ?_⟩
      split
      · exact (s.changes_modLink _).trans (State.changes_modLink _ _)
      · exact .refl s
  | none =>
    cases i with
    | powerReset hrx => exact ⟨_, rfl, s.performPowerReset_changes _ _⟩
    | pinReset hrx => exact ⟨_, rfl, s.performPowerReset_changes _ _⟩
    | linkReset =>
      refine ⟨_, rfl, ?_⟩
      split
      · split
        · exact s.performLinkReset_changes.trans (State.performDeviceReset_changes _)
        · exact s.performLinkReset_changes
      · exact .refl s
      · exact .refl s
    | gapTimerExpiry =>
      refine ⟨_, rfl, ?_⟩
      split
      · exact s.changes_modLink _
      · exact .refl s
    | byteArrival b =>
      refine ⟨_, rfl, ?_⟩
      split
      · exact .after (State.changes_raiseAll _ _) (.after (State.takeByte_changes _ _) (s.changes_modLink _))
      · exact .refl s
    | byteFramingError =>
      refine ⟨_, rfl, ?_⟩
      split
      · exact s.changes_modLink _
      · exact .refl s
    | wordArrival l w m => exact ⟨_, rfl, State.Quiet.changes {}⟩
    | dispatchStart =>
      refine ⟨_, rfl, ?_⟩
      split
      · split
        · exact (s.startDispatch_quiet _ _).changes
        · exact .refl s
      · exact .refl s
    | damageMarking c k =>
      refine ⟨_, rfl, ?_⟩
      split
      · exact .refl s
      · split
        · exact .refl s
        · split
          · exact (s.markDamage_quiet _ _ _ _).changes
          · exact .refl s
    | dispatchCompletion choice =>
      refine ⟨_, rfl, ?_⟩
      split
      · exact .refl s
      · exact s.complete_changes _ _
    | ackTimerExpiry c b =>
      refine ⟨_, rfl, ?_⟩
      split
      · split
        · next hr =>
          refine .after (State.changes_resend _ _) (State.Change.changes (.deliver c _ fun a => ?_))
          rw [ChanDelivery.modSlot_slot]
          split
          · exact .inr hr
          · exact .inl le_rfl
        · exact .after (State.changes_raiseAll _ _) (s.dropBatch_changes c b)
      · exact .refl s
    | transmissionStart =>
      refine ⟨_, rfl, ?_⟩
      split
      · exact s.startFrom_changes _
      · exact .refl s
    | sendCompletion =>
      refine ⟨_, rfl, ?_⟩
      split
      · exact .refl s
      · exact .after (State.changes_raiseAll _ _) (.after (State.sent_changes _ _) s.freeTransmitter_changes)
    | hrxChangesToSpace => exact ⟨_, rfl, s.changes_modLink _⟩
    | hrxChangesToMark => exact ⟨_, rfl, s.changes_modLink _⟩
    | _ => exact nomatch hf

/-- A step is a sequence of changes, but for the command that leaves the front of the queue. -/
theorem step_changes {s t : State} (h : step s = .next t) :
    s.Changes t ∨ ∃ rest, State.Changes { s with pending := rest } t := by
  unfold step at h
  split at h
  · obtain rfl := Host.Outcome.next.inj h
    exact .inl (.after (State.changes_raiseAll _ _) s.takeStopRequest_changes)
  · next c rest _ =>
    obtain ⟨u, hu, hc⟩ := exec_changes c { s with pending := rest }
    obtain rfl := Host.Outcome.next.inj (hu.symm.trans h)
    exact .inr ⟨rest, hc⟩

/-- What every change keeps, and does not speak of the commands that wait, a step keeps. -/
theorem step_keeps {P : State → Prop} (hc : ∀ s t, s.Change t → P s → P t)
    (hp : ∀ s rest, P s → P { s with pending := rest }) {s t : State} (hs : P s) (h : step s = .next t) :
    P t := by
  rcases step_changes h with h | ⟨rest, h⟩
  · exact h.keeps hc hs
  · exact h.keeps hc (hp s rest hs)

end Sys2Proof.Machine
end

section
/-! PROOFS. The laws of the channels are kept by every change, so by every step: the channel law (O55), the run
law (O53), the rotation law (O58); and what every command answers (O2, O5). -/

namespace Sys2Proof.Machine

/-! ## Quiet changes -/

theorem State.Quiet.chan {s t : State} (h : s.Quiet t) (c : ChanId) : t.chan c = s.chan c := by
  simp [State.chan, h.channels]

theorem State.Quiet.deliv {s t : State} (h : s.Quiet t) (c : ChanId) : t.deliv c = s.deliv c := by
  simp [State.deliv, h.delivery]

theorem State.Quiet.watch {s t : State} (h : s.Quiet t) (w : WatchId) : t.watch w = s.watch w := by
  simp [State.watch, h.watches]

theorem State.Quiet.list {s t : State} (h : s.Quiet t) (k : ClassId) : t.arbiter.list k = s.arbiter.list k := by
  simp [Arbiter.list, h.rotation]

/-- A property of every channel record, kept by a replacement of one. -/
theorem State.modChan_forall {s : State} {P : Channel → Prop} (c : ChanId) (f : Channel → Channel)
    (h : ∀ j, P (s.chan j)) (hc : P (s.chan c) → P (f (s.chan c))) (j : ChanId) : P ((s.modChan c f).chan j) := by
  rw [State.modChan_chan]
  split
  · exact hc (h c)
  · exact h j

/-! ## The commands that wait -/

theorem State.Change.pending {s t : State} (h : s.Change t) : t.pending = s.pending := by
  cases h with
  | quiet h => exact h.pending
  | _ => rfl

theorem State.Changes.pending {s t : State} (h : s.Changes t) : t.pending = s.pending :=
  h.keeps (P := fun u => u.pending = s.pending) (fun _ _ hc hs => hc.pending.trans hs) rfl

/-! ## The channel law (R2, R11) -/

/-- Nothing but a stop makes a channel STOPPING. -/
theorem Channel.Move.state_stopping {ch ch' : Channel} (h : ch.Move ch') (hs : ch'.state = .stopping) :
    ch.state = .stopping := by
  cases h with
  | tally h => rw [h] at hs; exact hs
  | sample h => rw [h] at hs; exact hs
  | ended st ds _ hst => rcases hst with rfl | rfl <;> exact nomatch hs
  | swapNow => exact hs
  | stageSwap => exact hs
  | swapPoint => exact hs
  | reported => exact hs
  | _ => exact nomatch hs

theorem OpSlot.finish_ne_pending (o : OpSlot) (ds : DoneStatus) (op : Operation) (tag : Byte) :
    o.finish ds ≠ .pending op tag := by
  cases o <;> simp [OpSlot.finish]

/-- A pending operation is left pending only where it is of another kind. -/
theorem OpSlot.finishOp_eq_pending {o : OpSlot} {op op' : Operation} {ds : DoneStatus} {tag : Byte} :
    o.finishOp op ds = .pending op' tag ↔ o = .pending op' tag ∧ op' ≠ op := by
  cases o with
  | pending x y =>
    simp only [OpSlot.finishOp]
    split <;> simp <;> rintro rfl <;> simp_all
  | _ => simp [OpSlot.finishOp]

theorem Channel.Law.of_eq {ch ch' : Channel} (h : ch.Law) (h1 : ch'.state = ch.state) (h2 : ch'.active = ch.active)
    (h3 : ch'.staged = ch.staged) (h4 : ch'.stopCause = ch.stopCause) (h5 : ch'.opSlot = ch.opSlot) : ch'.Law := by
  obtain ⟨active, staged, swaps, cause, command⟩ := h
  exact ⟨by rw [h1, h2]; exact active, by rw [h3, h5]; exact staged, by rw [h3, h1]; exact swaps,
    by rw [h4, h1]; exact cause, by rw [h4, h5]; exact command⟩

/-- Only a RUNNING channel has a staged bank. -/
theorem Channel.Law.staged_none {ch : Channel} (h : ch.Law) (hs : ch.state ≠ .running) : ch.staged = none := by
  rw [← Option.not_isSome_iff_eq_none]
  exact fun hn => hs (h.swaps hn)

/-- Only a STOPPING channel has a stop cause. -/
theorem Channel.Law.stopCause_none {ch : Channel} (h : ch.Law) (hs : ch.state ≠ .stopping) : ch.stopCause = none := by
  rw [← Option.not_isSome_iff_eq_none]
  exact fun hn => hs (h.cause.1 hn)

/-- A channel that has neither a staged bank nor a stop cause has no operation pending. -/
theorem Channel.Law.not_pending {ch : Channel} (h : ch.Law) (hs : ch.staged = none) (hc : ch.stopCause = none)
    (op : Operation) (tag : Byte) : ch.opSlot ≠ .pending op tag := by
  intro ho
  cases op with
  | swap => simpa [hs] using h.staged.2 ⟨tag, ho⟩
  | stop => simpa [hc] using h.command.2 ⟨tag, ho⟩

/-- The law of a channel with no staged bank, no stop cause and no operation pending. -/
theorem Channel.Law.settled {ch : Channel} (ha : ch.active = none ↔ ch.state = .idle) (hs : ch.staged = none)
    (hst : ch.state ≠ .stopping) (hc : ch.stopCause = none) (ho : ∀ op tag, ch.opSlot ≠ .pending op tag) :
    ch.Law where
  active := ha
  staged := by simp [hs, ho]
  swaps := by simp [hs]
  cause := by simp [hc, hst]
  command := by simp [hc, ho]

theorem Channel.Move.law {ch ch' : Channel} (h : ch.Move ch') (hl : ch.Law) : ch'.Law := by
  cases h with
  | tally h => exact hl.of_eq (by rw [h]) (by rw [h]) (by rw [h]) (by rw [h]) (by rw [h])
  | sample h => exact hl.of_eq (by rw [h]) (by rw [h]) (by rw [h]) (by rw [h]) (by rw [h])
  | bind b h =>
    have hs := hl.staged_none (by rcases h with h | h <;> rw [h] <;> decide)
    have hc := hl.stopCause_none (by rcases h with h | h <;> rw [h] <;> decide)
    exact .settled (by simp) hs (nomatch ·) hc (hl.not_pending hs hc)
  | start h =>
    have hs := hl.staged_none (by rw [h]; decide)
    have hc := hl.stopCause_none (by rw [h]; decide)
    exact .settled (by simp [hl.active, h]) hs (nomatch ·) hc (hl.not_pending hs hc)
  | drained h hc =>
    have hs := hl.staged_none (by rw [h]; decide)
    refine .settled (by simp [hl.active, h]) hs (nomatch ·) rfl fun op tag ho => ?_
    obtain ⟨ho, hne⟩ := OpSlot.finishOp_eq_pending.1 ho
    cases op with
    | stop => exact hne rfl
    | swap => simpa [hs] using hl.staged.2 ⟨tag, ho⟩
  | stopped h hc =>
    have hs := hl.staged_none (by rw [h]; decide)
    refine .settled (by simp [hl.active, h]) hs (nomatch ·) rfl fun op tag ho => ?_
    cases op with
    | stop => simpa [hc] using hl.command.2 ⟨tag, ho⟩
    | swap => simpa [hs] using hl.staged.2 ⟨tag, ho⟩
  | ended st ds h hst =>
    have hi : ch.state ≠ .idle := by rintro e; rw [e] at h; exact nomatch h
    refine .settled ?_ rfl ?_ rfl (OpSlot.finish_ne_pending _ _)
    · rcases hst with rfl | rfl <;> simp [hl.active, hi]
    · rcases hst with rfl | rfl <;> exact (nomatch ·)
  | clear h =>
    have hs := hl.staged_none (by rintro e; rw [e] at h; exact nomatch h)
    have hc := hl.stopCause_none (by rintro e; rw [e] at h; exact nomatch h)
    exact .settled (by simp) hs (nomatch ·) hc (hl.not_pending hs hc)
  | swapNow b tag h ho =>
    have hs := hl.staged_none (by rw [h]; decide)
    have hc := hl.stopCause_none (by rw [h]; decide)
    exact .settled (by simp [h]) hs (by rw [h]; exact (nomatch ·)) hc (by simp)
  | stageSwap b tag h ho =>
    have hc := hl.stopCause_none (by rw [h]; decide)
    exact ⟨hl.active, by simp, fun _ => h, hl.cause, by simp [hc]⟩
  | swapPoint b h =>
    have hr := hl.swaps (by simp [h])
    have hc := hl.stopCause_none (by rw [hr]; decide)
    refine .settled (by simp [hr]) rfl (by rw [hr]; exact (nomatch ·)) hc fun op tag ho => ?_
    obtain ⟨ho, hne⟩ := OpSlot.finishOp_eq_pending.1 ho
    cases op with
    | swap => exact hne rfl
    | stop => simpa [hc] using hl.command.2 ⟨tag, ho⟩
  | reported =>
    have pending (op : Operation) (tag : Byte) :
        (if ch.opSlot.isUnreported then OpSlot.none else ch.opSlot) = .pending op tag ↔ ch.opSlot = .pending op tag := by
      cases ch.opSlot <;> simp [OpSlot.isUnreported]
    exact ⟨hl.active, by simpa only [pending] using hl.staged, hl.swaps, hl.cause,
      by simpa only [pending] using hl.command⟩

theorem Channel.Stop.law {ch ch' : Channel} (h : ch.Stop ch') (hl : ch.Law) : ch'.Law := by
  cases h with
  | command tag h ho =>
    have hs : ch.staged = none := by
      rw [← Option.not_isSome_iff_eq_none, hl.staged, ho]
      exact fun ⟨_, e⟩ => nomatch e
    exact ⟨by simp [hl.active, h], by simp [hs], by simp [hs], by simp, by simp⟩
  | watch h =>
    have hc := hl.stopCause_none (by rw [h]; decide)
    have none_pending (op : Operation) (tag : Byte) :
        ch.opSlot.finishOp .swap .cancelled ≠ .pending op tag := fun ho => by
      obtain ⟨ho, hne⟩ := OpSlot.finishOp_eq_pending.1 ho
      cases op with
      | swap => exact hne rfl
      | stop => simpa [hc] using hl.command.2 ⟨tag, ho⟩
    exact ⟨by simp [hl.active, h], by simp [none_pending], by simp, by simp, by simp [none_pending]⟩

theorem Channel.reset_law : Channel.reset.Law := by
  constructor <;> simp [Channel.reset]

theorem State.Change.channelLaw {s t : State} (h : s.Change t) (hl : s.ChannelLaw) : t.ChannelLaw := by
  obtain ⟨records, nodup, requests⟩ := hl
  cases h with
  | quiet h =>
    refine ⟨fun c => by rw [h.chan]; exact records c, by rw [h.requests]; exact nodup, ?_⟩
    rw [h.requests]
    exact fun c hc => by rw [h.chan]; exact requests c hc
  | move c f h =>
    refine ⟨State.modChan_forall c f records h.law, nodup, fun j hj => ?_⟩
    rw [State.modChan_chan]
    split
    · next e => exact fun hs => requests j hj (e ▸ h.state_stopping hs)
    · exact requests j hj
  | stop c f h hr =>
    refine ⟨State.modChan_forall c f records h.law, nodup, fun j hj => ?_⟩
    rw [State.modChan_chan_ne _ _ _ _ (ne_of_mem_of_not_mem hj hr)]
    exact requests j hj
  | ignore h => exact ⟨records, nodup.sublist h, fun c hc => requests c (h.subset hc)⟩
  | request c h hc =>
    refine ⟨records, List.nodup_append.2 ⟨nodup, List.nodup_singleton c, ?_⟩, fun j hj => ?_⟩
    · rintro a ha b hb rfl
      exact hc (List.mem_singleton.1 hb ▸ ha)
    · rcases List.mem_append.1 hj with hj | hj
      · exact requests j hj
      · rw [List.mem_singleton.1 hj]
        show (s.chan c).state ≠ _
        rw [h]; decide
  | configure c g h hg =>
    have moved (j : ChanId) : ((s.configure c g).chan j).state = (s.chan j).state := by
      simp only [State.configure, State.modChan_chan]
      split
      · next e => rw [e]; rfl
      · rfl
    refine ⟨State.modChan_forall c _ records fun hl => hl.of_eq rfl rfl rfl rfl rfl, nodup, fun j hj => ?_⟩
    rw [moved]
    exact requests j hj
  | reset => exact ⟨fun c => by rw [State.resetBlocks_chan]; exact Channel.reset_law, List.nodup_nil, nofun⟩
  | _ => exact ⟨records, nodup, requests⟩

/-! ## The run law (R1, R2, R72, R83, R106) -/

/-- The run law of one channel record. -/
structure Channel.Ranges (ch : Channel) : Prop where
  config : ch.config.InRange
  phase  : ch.state.inRun = true → ch.phase < ch.config.decimation
  fill   : ch.fill ≤ 256

theorem Channel.Move.config {ch ch' : Channel} (h : ch.Move ch') : ch'.config = ch.config := by
  cases h with
  | tally h => rw [h]
  | sample h => rw [h]
  | _ => rfl

/-- A move ends a run, goes on with it, or starts one with phase 0. -/
theorem Channel.Move.ranges {ch ch' : Channel} (h : ch.Move ch') (hr : ch.Ranges) : ch'.Ranges := by
  obtain ⟨config, phase, fill⟩ := hr
  cases h with
  | tally h => rw [h]; exact ⟨config, phase, fill⟩
  | sample h =>
    rw [h]
    refine ⟨config, fun hrun => ?_, Nat.min_le_left _ _⟩
    have := phase hrun
    dsimp only
    split <;> omega
  | start => exact ⟨config, fun _ => config.decimation.1, Nat.zero_le _⟩
  | clear => exact ⟨config, (nomatch ·), Nat.zero_le _⟩
  | ended st ds _ hst => exact ⟨config, (by rcases hst with rfl | rfl <;> exact (nomatch ·)), fill⟩
  | swapNow => exact ⟨config, phase, fill⟩
  | stageSwap => exact ⟨config, phase, fill⟩
  | swapPoint => exact ⟨config, phase, fill⟩
  | reported => exact ⟨config, phase, fill⟩
  | _ => exact ⟨config, (nomatch ·), fill⟩

theorem Channel.Stop.config {ch ch' : Channel} (h : ch.Stop ch') : ch'.config = ch.config := by
  cases h <;> rfl

/-- A stop goes on with the run. -/
theorem Channel.Stop.ranges {ch ch' : Channel} (h : ch.Stop ch') (hr : ch.Ranges) : ch'.Ranges := by
  cases h with
  | command tag h => exact ⟨hr.config, fun _ => hr.phase (by rw [h]; rfl), hr.fill⟩
  | watch h => exact ⟨hr.config, fun _ => hr.phase (by rw [h]; rfl), hr.fill⟩

theorem Channel.reset_ranges : Channel.reset.Ranges := ⟨ChanConfig.default_inRange, (nomatch ·), Nat.zero_le _⟩

theorem Watch.reset_law : Watch.reset.Law := by
  constructor <;> simp [Watch.reset]

theorem ChanDelivery.reset_retry (b : BatchId) : (ChanDelivery.reset.slot b).retry = 0 := by
  simp [ChanDelivery.reset, ChanDelivery.slot, BatchSlot.free]

/-- The run law, record by record. -/
theorem State.runLaw_iff {s : State} : s.RunLaw ↔
    (∀ c, (s.chan c).Ranges) ∧ (∀ c, (s.ring c).length ≤ 256) ∧ (∀ c b, ((s.deliv c).slot b).retry ≤ 7) ∧
      ∀ w, (s.watch w).Law :=
  ⟨fun h => ⟨fun c => ⟨h.config c, h.phase c, (h.fill c).1⟩, fun c => (h.fill c).2, h.retries, h.watches⟩,
    fun ⟨h, rings, retries, watches⟩ => ⟨fun c => (h c).config, fun c => (h c).phase,
      fun c => ⟨(h c).fill, rings c⟩, retries, watches⟩⟩

theorem State.Change.runLaw {s t : State} (h : s.Change t) (hl : s.RunLaw) : t.RunLaw := by
  rw [State.runLaw_iff] at hl ⊢
  obtain ⟨ranges, rings, retries, watches⟩ := hl
  cases h with
  | quiet h =>
    exact ⟨fun c => by rw [h.chan]; exact ranges c, fun c => by rw [h.rings]; exact rings c,
      fun c b => by rw [h.deliv]; exact retries c b, fun w => by rw [h.watch]; exact watches w⟩
  | move c f h => exact ⟨State.modChan_forall c f ranges h.ranges, rings, retries, watches⟩
  | stop c f h hr => exact ⟨State.modChan_forall c f ranges h.ranges, rings, retries, watches⟩
  | configure c g h hg =>
    refine ⟨State.modChan_forall c _ ranges fun hr => ⟨hg, fun hrun => ?_, hr.fill⟩, rings, retries, watches⟩
    exact nomatch h.symm.trans hrun
  | deliver c f h =>
    refine ⟨ranges, rings, fun j b => ?_, watches⟩
    rw [State.modDeliv_deliv]
    split
    · exact (h b).elim (fun h => h.trans (retries c b)) fun h => h.trans (ranges c).config.retryLimit
    · exact retries j b
  | ring c f h =>
    refine ⟨ranges, fun j => ?_, retries, watches⟩
    rw [State.modRing_ring]
    split
    · exact h.elim (fun h => h.trans (rings c)) id
    · exact rings j
  | watch w f h =>
    refine ⟨ranges, rings, retries, fun x => ?_⟩
    rw [State.modWatch_watch]
    split
    · exact h (watches w)
    · exact watches x
  | restart c =>
    refine ⟨ranges, rings, retries, fun w => ?_⟩
    have : State.watch { s with watches := s.watches.map (Watch.restart c) } w = (s.watch w).restart c := by
      simp [State.watch]
    rw [this]
    exact Watch.restart_law c _ (watches w)
  | reset =>
    refine ⟨fun c => ?_, rings, fun c b => ?_, fun w => ?_⟩
    · rw [State.resetBlocks_chan]; exact Channel.reset_ranges
    · rw [State.resetBlocks_deliv, ChanDelivery.reset_retry]; exact Nat.zero_le _
    · rw [State.resetBlocks_watch]; exact Watch.reset_law
  | _ => exact ⟨ranges, rings, retries, watches⟩

/-! ## The rotation law (R7, R123) -/

theorem mem_others {c x : ChanId} {l : List ChanId} : x ∈ others c l ↔ x ∈ l ∧ x ≠ c := by
  simp [others]

theorem others_nodup {c : ChanId} {l : List ChanId} (h : l.Nodup) : (others c l).Nodup := h.filter _

theorem not_mem_others (c : ChanId) (l : List ChanId) : c ∉ others c l := fun h => (mem_others.1 h).2 rfl

theorem Arbiter.modList_list (a : Arbiter) (k j : ClassId) (f : List ChanId → List ChanId) :
    (a.modList k f).list j = if j = k then f (a.list k) else a.list j := by
  split
  · next h => rw [h, Arbiter.modList_list_same]
  · next h => exact a.modList_list_ne k j f h

/-- A list holds each of some channels once. -/
def Lists (l : List ChanId) (p : ChanId → Prop) : Prop := l.Nodup ∧ ∀ c, c ∈ l ↔ p c

theorem Lists.snoc_others {l : List ChanId} {p : ChanId → Prop} (h : Lists l p) (c : ChanId) :
    Lists (others c l ++ [c]) fun x => p x ∨ x = c := by
  refine ⟨List.nodup_append.2 ⟨others_nodup h.1, List.nodup_singleton c, ?_⟩, fun x => ?_⟩
  · rintro a ha b hb rfl
    exact not_mem_others c l (List.mem_singleton.1 hb ▸ ha)
  · rw [List.mem_append, List.mem_singleton, mem_others, h.2]
    tauto

theorem Lists.cons_others {l : List ChanId} {p : ChanId → Prop} (h : Lists l p) (c : ChanId) :
    Lists (c :: others c l) fun x => p x ∨ x = c := by
  refine ⟨List.nodup_cons.2 ⟨not_mem_others c l, others_nodup h.1⟩, fun x => ?_⟩
  rw [List.mem_cons, mem_others, h.2]
  tauto

theorem Lists.others {l : List ChanId} {p : ChanId → Prop} (h : Lists l p) (c : ChanId) :
    Lists (Machine.others c l) fun x => p x ∧ x ≠ c :=
  ⟨others_nodup h.1, fun x => by rw [mem_others, h.2]⟩

/-- The lists hold the channels by class, whatever names the classes. -/
def Arbiter.Sorts (a : Arbiter) (cls : ChanId → ClassId) : Prop := ∀ k, Lists (a.list k) fun c => cls c = k

theorem Arbiter.Sorts.toTail {a : Arbiter} {cls : ChanId → ClassId} (h : a.Sorts cls) (c : ChanId) :
    (a.toTail c (cls c)).Sorts cls := fun k => by
  rw [Arbiter.toTail, Arbiter.modList_list]
  split
  · next e =>
    obtain ⟨nodup, mem⟩ := (h (cls c)).snoc_others c
    subst e
    exact ⟨nodup, fun x => (mem x).trans ⟨fun hx => hx.elim id (· ▸ rfl), .inl⟩⟩
  · exact h k

theorem Arbiter.Sorts.toHead {a : Arbiter} {cls : ChanId → ClassId} (h : a.Sorts cls) (c : ChanId) :
    (a.toHead c (cls c)).Sorts cls := fun k => by
  rw [Arbiter.toHead, Arbiter.modList_list]
  split
  · next e =>
    obtain ⟨nodup, mem⟩ := (h (cls c)).cons_others c
    subst e
    exact ⟨nodup, fun x => (mem x).trans ⟨fun hx => hx.elim id (· ▸ rfl), .inl⟩⟩
  · exact h k

/-- A class change moves the channel, and no other, from its old list to the new one. -/
theorem Arbiter.Sorts.changeClass {a : Arbiter} {cls : ChanId → ClassId} (h : a.Sorts cls) (c : ChanId)
    (new : ClassId) : (a.changeClass c (cls c) new).Sorts (Function.update cls c new) := fun k => by
  unfold Arbiter.changeClass
  split
  · next e =>
    rw [← e, Function.update_eq_self]
    exact h k
  · next e =>
    rw [Arbiter.modList_list, Arbiter.modList_list_ne _ _ _ _ (Ne.symm e), Arbiter.modList_list]
    split
    · next hk =>
      subst hk
      obtain ⟨nodup, mem⟩ := h k
      refine ⟨List.nodup_append.2 ⟨nodup, List.nodup_singleton c, ?_⟩, fun x => ?_⟩
      · rintro y hy z hz rfl
        exact e ((mem c).1 (List.mem_singleton.1 hz ▸ hy))
      · rw [List.mem_append, List.mem_singleton, mem]
        by_cases hx : x = c <;> simp [hx]
    · next hk =>
      split
      · next ho =>
        subst ho
        obtain ⟨nodup, mem⟩ := (h (cls c)).others c
        refine ⟨nodup, fun x => (mem x).trans ?_⟩
        by_cases hx : x = c <;> simp [hx, Ne.symm hk]
      · next ho =>
        refine ⟨(h k).1, fun x => ((h k).2 x).trans ?_⟩
        by_cases hx : x = c <;> simp [hx, Ne.symm hk, Ne.symm ho]

/-- The class of every channel. -/
def State.classOf (s : State) (c : ChanId) : ClassId := (s.chan c).config.cls

theorem State.rotationLaw_iff {s : State} : s.RotationLaw ↔ s.arbiter.Sorts s.classOf := Iff.rfl

/-- A record replaced with its configuration kept leaves every class. -/
theorem State.classOf_modChan {s : State} {c : ChanId} {f : Channel → Channel}
    (h : (f (s.chan c)).config = (s.chan c).config) : (s.modChan c f).classOf = s.classOf := by
  funext j
  unfold State.classOf
  rw [State.modChan_chan]
  split
  · next e => rw [e, h]
  · rfl

theorem State.Change.rotationLaw {s t : State} (h : s.Change t) (hl : s.RotationLaw) : t.RotationLaw := by
  rw [State.rotationLaw_iff] at hl ⊢
  cases h with
  | quiet h =>
    intro k
    have : t.classOf = s.classOf := funext fun c => by rw [State.classOf, h.chan]; rfl
    rw [this, h.list]
    exact hl k
  | move c f h => rw [State.classOf_modChan h.config]; exact hl
  | stop c f h => rw [State.classOf_modChan h.config]; exact hl
  | configure c g =>
    have : (s.configure c g).classOf = Function.update s.classOf c g.cls := funext fun j => by
      rw [Function.update_apply, State.classOf, State.configure, State.modChan_chan]
      split <;> rfl
    rw [this]
    exact hl.changeClass c g.cls
  | toTail c => exact hl.toTail c
  | toHead c => exact hl.toHead c
  | reset =>
    have : s.resetBlocks.classOf = fun _ => 3 := funext fun c => by
      rw [State.classOf, State.resetBlocks_chan]; rfl
    rw [this]
    show Arbiter.reset.Sorts fun _ => 3
    unfold Arbiter.Sorts Lists
    decide
  | _ => exact hl

/-! ## The obligations -/

/-- Settles O53: every change keeps the run law. -/
theorem stepKeepsTheRunLaw : Obligations.StepKeepsTheRunLaw := fun _ _ hs h =>
  step_keeps (fun _ _ => State.Change.runLaw)
    (fun _ _ hl => ⟨hl.config, hl.phase, hl.fill, hl.retries, hl.watches⟩) hs h

/-- Settles O55: every change keeps the channel law. -/
theorem stepKeepsTheChannelLaw : Obligations.StepKeepsTheChannelLaw := fun _ _ hs h =>
  step_keeps (fun _ _ => State.Change.channelLaw) (fun _ _ hl => ⟨hl.records, hl.requests⟩) hs h

/-- Settles O58: every change keeps the rotation law. -/
theorem stepKeepsTheRotationLaw : Obligations.StepKeepsTheRotationLaw := fun _ _ hs h =>
  step_keeps (fun _ _ => State.Change.rotationLaw) (fun _ _ hl => hl) hs h

/-- Settles O2: no change touches the commands that wait. -/
theorem everyCommandAnswersANextState : Obligations.EveryCommandAnswersANextState := fun i s => by
  obtain ⟨t, ht, hc⟩ := exec_changes i s
  exact ⟨t, ht, hc.pending⟩

/-- Settles O5, by what every owner keeps on a refusal. -/
theorem refusedCommandsChangeNothingElse : Obligations.RefusedCommandsChangeNothingElse := fun i f s hwf hf ht => by
  rcases exec_taking hf with ⟨c, owner, hc, fair, h⟩ | h
  · have ht' : s.Takes ⟨c.code, f.tag, f.payload⟩ := hc ▸ ht
    obtain ⟨status, body, replies, refusal⟩ := State.take_answered ht' fair
    exact ⟨_, status, body, h s, hc ▸ replies, hc ▸ refusal⟩
  · have hn : Command.ofCode f.type = none := by
      rw [h] at hwf
      simp only [Instr.wf, isBadType, Bool.and_eq_true, Option.isNone_iff_eq_none] at hwf
      exact hwf.1.1
    have htake : (s.canTake ⟨f.type, f.tag, f.payload⟩ && (Command.ofCode f.type).isNone) = true := by
      rw [hn, (s.canTake_iff _).2 ht]; rfl
    refine ⟨s.answered f.tag f.type .badType [], .badType, [], ?_, rfl, .inr (.inr (.inr rfl))⟩
    rw [h]
    exact congrArg Host.Outcome.next (if_pos htake)

end Sys2Proof.Machine
end

section
/-! PROOFS. The commands of the channel controller with their whole next state: what each operation writes, as one
update of the state, and what each owner answers. -/

namespace Sys2Proof.Machine

/-! ## What the operations on references write (R37, R38) -/

theorem State.addRef_bank (s : State) (b x : BankId) :
    (s.addRef b).bank x = { s.bank x with refs := (s.bank x).refs + if x = b then 1 else 0 } := by
  rw [State.addRef, State.modBank_bank]
  split
  · next h => rw [h]
  · rfl

theorem State.dropRef?_bank (s : State) (o : Option BankId) (x : BankId) :
    (s.dropRef? o).bank x = { s.bank x with refs := (s.bank x).refs - if o = some x then 1 else 0 } := by
  cases o with
  | none => rfl
  | some b =>
    rw [State.dropRef?, State.dropRef, State.modBank_bank]
    split
    · next h => rw [h, if_pos rfl]
    · next h => rw [if_neg fun e => h (Option.some.inj e).symm]; rfl

theorem State.dropRef?_eq (s : State) (o : Option BankId) :
    s.dropRef? o = { s with banks := (s.dropRef? o).banks } := by
  cases o <;> rfl

/-- The banks after a claim that adds one and a claim that subtracts one from the bank named, if one is. -/
theorem State.addRef_dropRef?_banks (s : State) (b : BankId) (o : Option BankId) (x : BankId) :
    ((s.addRef b).dropRef? o).banks[x.val] = { s.bank x with
      refs := (s.bank x).refs + (if x = b then 1 else 0) - (if o = some x then 1 else 0) } := by
  have h := (s.addRef b).dropRef?_bank o x
  rw [State.addRef_bank] at h
  exact h

/-! ## The taking of a command by its owner -/

/-- Notices raised do not depend on the link controller. -/
theorem State.popInbound_raiseAll (s : State) (ns : List Notice) :
    s.popInbound.raiseAll ns = (s.raiseAll ns).popInbound := by
  rw [State.raiseAll_frame, State.raiseAll_arbiter_congr ns (show s.popInbound.arbiter = s.arbiter from rfl),
    State.raiseAll_frame s]
  rfl

/-- A taking whose owner answers on the state without the frame. -/
theorem State.take_next {s t : State} {c : Command} {tag : Byte} {p : List Byte} {owner : State → Answer}
    {status : Status} {body : List Byte} {ns : List Notice} (h : s.Takes ⟨c.code, tag, p⟩)
    (hl : lengthOk c p.length = true) (hr : reservedOk c p = true)
    (ha : owner s.popInbound = ⟨t.popInbound, status, body, ns⟩) :
    s.take c tag p owner = (t.raiseAll ns).answered tag c.code status body := by
  rw [State.take_owner h hl hr ha, State.popInbound_raiseAll, State.popInbound_queueReply]

/-! ## CHAN_CONFIG (R6, R7) -/

theorem boolOfByte_lt {b : Byte} {x : Bool} (h : boolOfByte b = some x) : b.toNat < 2 := by
  unfold boolOfByte at h
  split at h
  · next e => rw [e]; decide
  · split at h
    · next e => rw [e]; decide
    · exact nomatch h

theorem boolOfByte_boolByte (x : Bool) : boolOfByte (boolByte x) = some x := by
  cases x <;> rfl

theorem RangePolicy.ofByte_lt {b : Byte} {x : RangePolicy} (h : RangePolicy.ofByte b = some x) : b.toNat < 2 := by
  have hb : x.code = b := by simpa using List.find?_some h
  rw [← hb]
  cases x <;> decide

theorem RangePolicy.ofByte_code (x : RangePolicy) : RangePolicy.ofByte x.code = some x := by
  cases x <;> rfl

/-- The ranges of section 9.3, as a CHAN_CONFIG payload meets them when it is accepted. -/
theorem configOperands_ranges {p : List Byte} {g : ChanConfig} (h : configOperands p = some g) :
    let v (i : Nat) := (byteAt p i).toNat
    v 1 < 4 ∧ v 2 < 8 ∧ 1 ≤ v 3 ∧ v 3 ≤ 64 ∧ v 4 ≤ 23 ∧ v 5 < 2 ∧ v 6 < 2 ∧ 1 ≤ v 7 ∧ v 7 ≤ 32 ∧ 1 ≤ v 8 ∧
      v 8 ≤ 3 ∧ v 9 < 2 ∧ v 10 < 4 ∧ v 11 ≤ 7 ∧ 1 ≤ (halfAt p 12).toNat ∧ (halfAt p 12).toNat ≤ 2000 := by
  unfold configOperands at h
  simp only [Option.bind_eq_bind, Option.bind_eq_some_iff, inRange_eq_some] at h
  obtain ⟨_, lane, _, slot, _, ⟨d1, d2, -⟩, _, ⟨-, s2, -⟩, _, fraction, _, policy, _, ⟨b1, b2, -⟩, _, ⟨w1, w2, -⟩,
    _, auto, _, cls, _, ⟨-, r2, -⟩, _, ⟨a1, a2, -⟩, -⟩ := h
  exact ⟨indexOf_lt lane, indexOf_lt slot, d1, d2, s2, boolOfByte_lt fraction, RangePolicy.ofByte_lt policy,
    b1, b2, w1, w2, boolOfByte_lt auto, indexOf_lt cls, r2, a1, a2⟩

theorem halfBytes_append (x : Half) : x.extractLsb' 8 8 ++ x.extractLsb' 0 8 = x := by
  apply BitVec.eq_of_getLsbD_eq
  intro i hi
  rw [BitVec.getLsbD_append]
  by_cases h : i < 8
  · simp [h]
  · have h8 : i - 8 < 8 := by omega
    simp [h, h8, show 8 + (i - 8) = i by omega]

/-- The payload of a CHAN_CONFIG that asks for a configuration of channel `c` (section 9.3). -/
def configPayload (c : ChanId) (g : ChanConfig) : List Byte := natByte c.val :: g.report

theorem inRange_natByte {lo hi n : Nat} (h : lo ≤ n ∧ n ≤ hi) (hn : n < 256) :
    inRange lo hi (natByte n).toNat = some n := by
  rw [natByte_toNat hn, inRange_eq_some]
  exact ⟨h.1, h.2, rfl⟩

theorem configOperands_payload (c : ChanId) (g : ChanConfig) (hg : g.InRange) :
    configOperands (configPayload c g) = some g := by
  obtain ⟨⟨d1, d2⟩, shift, ⟨b1, b2⟩, ⟨w1, w2⟩, ⟨a1, a2⟩, retry⟩ := hg
  have lane := indexOf_natByte g.lane (by decide)
  have slot := indexOf_natByte g.slot (by decide)
  have cls := indexOf_natByte g.cls (by decide)
  have decimation := inRange_natByte (n := g.decimation) ⟨d1, d2⟩ (by omega)
  have shift := inRange_natByte (n := g.shift) ⟨Nat.zero_le _, shift⟩ (by omega)
  have batchSize := inRange_natByte (n := g.batchSize) ⟨b1, b2⟩ (by omega)
  have window := inRange_natByte (n := g.window) ⟨w1, w2⟩ (by omega)
  have retryLimit := inRange_natByte (n := g.retryLimit) ⟨Nat.zero_le _, retry⟩ (by omega)
  have ackTimeout : inRange 1 2000 (halfAt (configPayload c g) 12).toNat = some g.ackTimeout := by
    have : halfAt (configPayload c g) 12 = BitVec.ofNat 16 g.ackTimeout := halfBytes_append _
    rw [this, BitVec.toNat_ofNat, Nat.mod_eq_of_lt (by omega), inRange_eq_some]
    exact ⟨a1, a2, rfl⟩
  unfold configOperands
  rw [ackTimeout]
  show (do
    let lane ← indexOf 4 (natByte g.lane.val)
    let slot ← indexOf 8 (natByte g.slot.val)
    let decimation ← inRange 1 64 (natByte g.decimation).toNat
    let shift ← inRange 0 23 (natByte g.shift).toNat
    let fraction ← boolOfByte (boolByte g.fraction)
    let policy ← RangePolicy.ofByte g.policy.code
    let batchSize ← inRange 1 32 (natByte g.batchSize).toNat
    let window ← inRange 1 3 (natByte g.window).toNat
    let autoAck ← boolOfByte (boolByte g.autoAck)
    let cls ← indexOf 4 (natByte g.cls.val)
    let retryLimit ← inRange 0 7 (natByte g.retryLimit).toNat
    let ackTimeout ← some g.ackTimeout
    some (⟨lane, slot, decimation, shift, fraction, policy, batchSize, window, autoAck, cls, ackTimeout,
      retryLimit⟩ : ChanConfig)) = some g
  rw [lane, slot, decimation, shift, boolOfByte_boolByte, RangePolicy.ofByte_code, batchSize, window,
    boolOfByte_boolByte, cls, retryLimit]
  rfl

theorem chanConfigOwner_noChannel {p : List Byte} (s : State) (h : 16 ≤ (byteAt p 0).toNat) :
    chanConfigOwner p s = .refuse .chanConfig .badArg s := by
  rw [chanConfigOwner, indexOf_eq_none.2 h]

theorem chanConfigOwner_wrongState {p : List Byte} {s : State} {c : ChanId} (hc : indexOf 16 (byteAt p 0) = some c)
    (h : ¬ ((s.chan c).state = .idle ∨ (s.chan c).state = .ready)) :
    chanConfigOwner p s = .refuse .chanConfig .wrongState s := by
  rw [chanConfigOwner, hc]
  cases hs : (s.chan c).state <;> simp [hs] at h ⊢

theorem chanConfigOwner_settled {p : List Byte} {s : State} {c : ChanId} (hc : indexOf 16 (byteAt p 0) = some c)
    (h : (s.chan c).state = .idle ∨ (s.chan c).state = .ready) :
    chanConfigOwner p s = match configOperands p with
      | none => .refuse .chanConfig .badArg s
      | some g => .done .ok (s.configure c g) := by
  rw [chanConfigOwner, hc]
  rcases h with h | h <;> simp only [h] <;> rfl

/-- A configuration put in place: the record and, on a class change, the rotation lists. -/
theorem State.configure_eq (s : State) (c : ChanId) (g : ChanConfig) :
    s.configure c g = { s with
      channels := s.channels.set c.val { s.chan c with config := g }
      arbiter := { s.arbiter with
        rotation := if (s.chan c).config.cls = g.cls then s.arbiter.rotation
          else (s.arbiter.rotation.set (s.chan c).config.cls.val
            ((s.arbiter.list (s.chan c).config.cls).filter (· != c))).set g.cls.val
              (s.arbiter.list g.cls ++ [c]) } } := by
  unfold State.configure Arbiter.changeClass
  split
  · rfl
  · next h =>
    have hne : (s.chan c).config.cls.val ≠ g.cls.val := fun e => h (Fin.ext e)
    simp only [State.modArb, State.modChan, Arbiter.modList, others, Arbiter.list]
    rw [Vector.getElem_set_ne _ _ hne]
    rfl

/-! ## CHAN_BIND (R8) and the judgement of a bank -/

theorem State.bind_eq (s : State) (c : ChanId) (b : BankId) :
    s.bind c b = { s with
      banks := ((s.addRef b).dropRef? (s.chan c).active).banks
      channels := s.channels.set c.val { s.chan c with active := some b, state := .ready } } := by
  rw [State.bind, State.dropRef?_eq]
  rfl

theorem State.judge_free {s : State} {b : BankId} (h : (s.bank b).state = .free) : s.judge b = some .badArg := by
  rw [State.judge, h]

theorem State.judge_unusable {s : State} {b : BankId}
    (h : (s.bank b).state = .opened ∨ (s.bank b).state = .damaged) : s.judge b = some .wrongState := by
  rcases h with h | h <;> rw [State.judge, h]

theorem State.judge_sealed {s : State} {b : BankId} (h : (s.bank b).state = .sealed) : s.judge b = none := by
  rw [State.judge, h]

theorem State.popInbound_judge (s : State) (b : BankId) : s.popInbound.judge b = s.judge b := rfl

theorem chanBindOwner_noChannel {p : List Byte} (s : State) (h : 16 ≤ (byteAt p 0).toNat) :
    chanBindOwner p s = .refuse .chanBind .badArg s := by
  rw [chanBindOwner, indexOf_eq_none.2 h]

theorem chanBindOwner_wrongState {p : List Byte} {s : State} {c : ChanId} (hc : indexOf 16 (byteAt p 0) = some c)
    (h : ¬ ((s.chan c).state = .idle ∨ (s.chan c).state = .ready)) :
    chanBindOwner p s = .refuse .chanBind .wrongState s := by
  rw [chanBindOwner, hc]
  cases hs : (s.chan c).state <;> simp [hs] at h ⊢

theorem chanBindOwner_settled {p : List Byte} {s : State} {c : ChanId} (hc : indexOf 16 (byteAt p 0) = some c)
    (h : (s.chan c).state = .idle ∨ (s.chan c).state = .ready) :
    chanBindOwner p s = match indexOf 32 (byteAt p 1) with
      | none => .refuse .chanBind .badArg s
      | some b =>
        match s.judge b with
        | some refusal => .refuse .chanBind refusal s
        | none => .done .ok (s.bind c b) := by
  rw [chanBindOwner, hc]
  rcases h with h | h <;> simp only [h] <;> rfl

/-- What the owner answers on a bank named that it judges. -/
theorem chanBindOwner_bank {p : List Byte} {s : State} {c : ChanId} {b : BankId}
    (hc : indexOf 16 (byteAt p 0) = some c) (hb : indexOf 32 (byteAt p 1) = some b)
    (h : (s.chan c).state = .idle ∨ (s.chan c).state = .ready) :
    chanBindOwner p s = match s.judge b with
      | some refusal => .refuse .chanBind refusal s
      | none => .done .ok (s.bind c b) := by
  rw [chanBindOwner_settled hc h, hb]

/-! ## O43 -/

theorem exec_chanConfig_refused {s : State} {tag : Byte} {p : List Byte} {status : Status} (hp : p.length = 14)
    (ht : s.Takes ⟨0x30, tag, p⟩)
    (ho : chanConfigOwner p s.popInbound = .refuse .chanConfig status s.popInbound) :
    exec (.chanConfig tag p) s = .next (s.answered tag 0x30 status []) :=
  congrArg Host.Outcome.next (State.take_refused (c := .chanConfig) ht (by rw [hp]; rfl) rfl ho)

theorem exec_chanConfig_done {s : State} {tag : Byte} {c : ChanId} {g : ChanConfig} (hg : g.InRange)
    (ht : s.Takes ⟨0x30, tag, configPayload c g⟩)
    (h : (s.chan c).state = .idle ∨ (s.chan c).state = .ready) :
    exec (.chanConfig tag (configPayload c g)) s = .next ((s.configure c g).answered tag 0x30 .ok []) := by
  have ho : chanConfigOwner (configPayload c g) s.popInbound = ⟨(s.configure c g).popInbound, .ok, [], []⟩ := by
    rw [chanConfigOwner_settled (p := configPayload c g) (s := s.popInbound) (indexOf_natByte c (by decide)) h,
      configOperands_payload c g hg]
    rfl
  exact congrArg Host.Outcome.next (State.take_next (c := .chanConfig) ht rfl rfl ho)

theorem exec_chanBind_refused {s : State} {tag n m : Byte} {status : Status} (ht : s.Takes ⟨0x31, tag, [n, m]⟩)
    (ho : chanBindOwner [n, m] s.popInbound = .refuse .chanBind status s.popInbound) :
    exec (.chanBind tag [n, m]) s = .next (s.answered tag 0x31 status []) :=
  congrArg Host.Outcome.next (State.take_refused (c := .chanBind) ht rfl rfl ho)

theorem exec_chanBind_done {s : State} {tag n m : Byte} {c : ChanId} {b : BankId}
    (ht : s.Takes ⟨0x31, tag, [n, m]⟩) (ho : chanBindOwner [n, m] s.popInbound = .done .ok (s.popInbound.bind c b)) :
    exec (.chanBind tag [n, m]) s = .next ((s.bind c b).answered tag 0x31 .ok []) := by
  have hp : s.popInbound.bind c b = (s.bind c b).popInbound := by
    unfold State.bind
    show State.modChan ((s.popInbound.addRef b).dropRef? (s.chan c).active) c _ = _
    cases (s.chan c).active <;> rfl
  rw [hp] at ho
  exact congrArg Host.Outcome.next (State.take_next (c := .chanBind) ht rfl rfl ho)

/-- Settles O43, by what the owners of CHAN_CONFIG and CHAN_BIND answer in each case. -/
theorem configAndBindPrepareAChannel : Obligations.ConfigAndBindPrepareAChannel := by
  have index {n : Nat} {i : Fin n} (hn : n ≤ 256) {x : Byte} (h : x = natByte i.val) : indexOf n x = some i :=
    h ▸ indexOf_natByte i hn
  refine ⟨fun s tag p hp ht => ⟨fun h => ?_, fun c hc => ?_⟩, ?_, fun s tag n m ht => ⟨fun h => ?_, fun c hc => ?_⟩⟩
  · exact exec_chanConfig_refused hp ht (chanConfigOwner_noChannel _ h)
  · intro settled v inRange
    refine ⟨fun h => ?_, fun h hr => ?_⟩
    · exact exec_chanConfig_refused hp ht (chanConfigOwner_wrongState (index (by decide) hc) h)
    · have none : configOperands p = none := by
        cases hg : configOperands p with
        | none => rfl
        | some g => exact absurd (configOperands_ranges hg) hr
      refine exec_chanConfig_refused hp ht ?_
      rw [chanConfigOwner_settled (s := s.popInbound) (index (by decide) hc) h, none]
  · intro s tag c g hg p ht h old without
    rw [← State.configure_eq]
    exact exec_chanConfig_done hg ht h
  · exact exec_chanBind_refused ht (chanBindOwner_noChannel _ h)
  · intro settled
    have channel : indexOf 16 (byteAt [n, m] 0) = some c := index (by decide) hc
    refine ⟨fun h => ?_, fun h hm => ?_, fun b hb h => ?_⟩
    · exact exec_chanBind_refused ht (chanBindOwner_wrongState channel h)
    · refine exec_chanBind_refused ht ?_
      rw [chanBindOwner_settled (s := s.popInbound) channel h, show indexOf 32 (byteAt [n, m] 1) = none from indexOf_eq_none.2 hm]
    · have answer := chanBindOwner_bank (s := s.popInbound) channel (b := b) (index (by decide) hb) h
      refine ⟨fun hs => ?_, fun hs => ?_, fun hs => ?_⟩
      · exact exec_chanBind_refused ht (answer.trans (by rw [State.popInbound_judge, State.judge_free hs]))
      · exact exec_chanBind_refused ht (answer.trans (by rw [State.popInbound_judge, State.judge_unusable hs]))
      · refine ⟨_, s.addRef_dropRef?_banks b (s.chan c).active, ?_⟩
        rw [← State.bind_eq]
        exact exec_chanBind_done ht (answer.trans (by rw [State.popInbound_judge, State.judge_sealed hs]))

end Sys2Proof.Machine
end

section
/-! PROOFS. CHAN_START, CHAN_SWAP, CHAN_QUERY, CHAN_ROTATE, CHAN_ABORT and CHAN_CLEAR: what each owner answers,
what it writes, and the obligations O44, O46, O47 and O48. -/

namespace Sys2Proof.Machine

/-! ## CHAN_START (R9, R91) -/

theorem chanStartOwner_noChannel {p : List Byte} (s : State) (h : 16 ≤ (byteAt p 0).toNat) :
    chanStartOwner p s = .refuse .chanStart .badArg s := by
  rw [chanStartOwner, indexOf_eq_none.2 h]

/-- What the owner answers for a channel: a run begins in READY on a lane that carries the channel's slot. -/
theorem chanStartOwner_channel {p : List Byte} {s : State} {c : ChanId} (hc : indexOf 16 (byteAt p 0) = some c) :
    chanStartOwner p s =
      if (s.chan c).state = .ready ∧ s.laneReady c = true then .done .ok (s.start c)
      else .refuse .chanStart .wrongState s := by
  rw [chanStartOwner, hc]
  cases hs : (s.chan c).state <;> simp [hs]

theorem State.laneReady_iff {s : State} {c : ChanId} :
    s.laneReady c = true ↔ (s.lane (s.chan c).config.lane).state ≠ .off ∧
      (s.chan c).config.slot.val < (s.lane (s.chan c).config.lane).slotCount := by
  simp [State.laneReady]

/-- Settles O44: the owner's two answers, and what a run begun writes. -/
theorem startBeginsARun : Obligations.StartBeginsARun := by
  intro s tag n ht
  refine ⟨fun h => ?_, fun c hc => ?_⟩
  · exact congrArg Host.Outcome.next
      (State.take_refused (c := .chanStart) ht rfl rfl (chanStartOwner_noChannel _ h))
  · have channel : indexOf 16 (byteAt [n, 0] 0) = some c := hc ▸ indexOf_natByte c (by decide)
    have answer := chanStartOwner_channel (s := s.popInbound) channel
    intro ch lane
    refine ⟨fun h => ?_, fun hs hl hslot => ?_⟩
    · have refused : ¬ ((s.chan c).state = .ready ∧ s.laneReady c = true) := by
        rw [State.laneReady_iff]
        rintro ⟨hs, hl, hslot⟩
        exact h.elim (· hs) fun h => h.elim hl fun h => absurd hslot (not_lt.2 h)
      exact congrArg Host.Outcome.next
        (State.take_refused (c := .chanStart) ht rfl rfl (answer.trans (if_neg refused)))
    · have started : (s.chan c).state = .ready ∧ s.laneReady c = true := ⟨hs, State.laneReady_iff.2 ⟨hl, hslot⟩⟩
      refine ⟨s.watches.map (Watch.restart c), fun w => by rw [Vector.getElem_map]; rfl, ?_⟩
      exact congrArg Host.Outcome.next
        (State.take_next (c := .chanStart) (t := s.start c) (ns := []) ht rfl rfl (answer.trans (if_pos started)))

/-! ## CHAN_SWAP (R16, R17) -/

theorem chanSwapOwner_noChannel {tag : Byte} {p : List Byte} (s : State) (h : 16 ≤ (byteAt p 0).toNat) :
    chanSwapOwner tag p s = .refuse .chanSwap .badArg s := by
  rw [chanSwapOwner, indexOf_eq_none.2 h]

theorem chanSwapOwner_wrongState {tag : Byte} {p : List Byte} {s : State} {c : ChanId}
    (hc : indexOf 16 (byteAt p 0) = some c) (h : ¬ ((s.chan c).state = .ready ∨ (s.chan c).state = .running)) :
    chanSwapOwner tag p s = .refuse .chanSwap .wrongState s := by
  rw [chanSwapOwner, hc]
  cases hs : (s.chan c).state <;> simp [hs] at h ⊢

/-- What the owner answers for a channel in READY or RUNNING. -/
theorem chanSwapOwner_taken {tag : Byte} {p : List Byte} {s : State} {c : ChanId}
    (hc : indexOf 16 (byteAt p 0) = some c) (h : (s.chan c).state = .ready ∨ (s.chan c).state = .running) :
    chanSwapOwner tag p s =
      if (s.chan c).opSlot ≠ .none then .refuse .chanSwap .busy s
      else
        match indexOf 32 (byteAt p 1) with
        | none => .refuse .chanSwap .badArg s
        | some b =>
          match s.judge b with
          | some refusal => .refuse .chanSwap refusal s
          | none =>
            .done .accepted
              (if (s.chan c).state = .ready then s.swapNow c b tag else s.stageSwap c b tag) := by
  rw [chanSwapOwner, hc]
  rcases h with h | h <;> simp only [h] <;> rfl

/-- What the owner answers on a bank named that it judges. -/
theorem chanSwapOwner_bank {tag : Byte} {p : List Byte} {s : State} {c : ChanId} {b : BankId}
    (hc : indexOf 16 (byteAt p 0) = some c) (hb : indexOf 32 (byteAt p 1) = some b)
    (h : (s.chan c).state = .ready ∨ (s.chan c).state = .running) (ho : (s.chan c).opSlot = .none) :
    chanSwapOwner tag p s = match s.judge b with
      | some refusal => .refuse .chanSwap refusal s
      | none =>
        .done .accepted (if (s.chan c).state = .ready then s.swapNow c b tag else s.stageSwap c b tag) := by
  rw [chanSwapOwner_taken hc h, if_neg (not_not.2 ho), hb]

theorem State.swapNow_eq (s : State) (c : ChanId) (b : BankId) (tag : Byte) :
    s.swapNow c b tag = { s with
      banks := ((s.addRef b).dropRef? (s.chan c).active).banks
      channels := s.channels.set c.val { s.chan c with
        active := some b, opSlot := .unreported .swap tag .ok } } := by
  rw [State.swapNow, State.dropRef?_eq]
  rfl

theorem State.popInbound_dropRef? (s : State) (o : Option BankId) :
    s.popInbound.dropRef? o = (s.dropRef? o).popInbound := by
  cases o <;> rfl

theorem State.popInbound_swapNow (s : State) (c : ChanId) (b : BankId) (tag : Byte) :
    s.popInbound.swapNow c b tag = (s.swapNow c b tag).popInbound := by
  unfold State.swapNow
  show State.modChan ((s.addRef b).popInbound.dropRef? (s.chan c).active) c _ = _
  rw [State.popInbound_dropRef?]
  rfl

/-- Settles O47, by what the owner of CHAN_SWAP answers in each case. -/
theorem swapIsImmediateOrStaged : Obligations.SwapIsImmediateOrStaged := by
  intro s tag n m ht refused
  have refuse {status : Status}
      (h : chanSwapOwner tag [n, m] s.popInbound = .refuse .chanSwap status s.popInbound) : refused status :=
    congrArg Host.Outcome.next (State.take_refused (c := .chanSwap) ht rfl rfl h)
  refine ⟨fun h => refuse (chanSwapOwner_noChannel _ h), fun c hc => ?_⟩
  have channel : indexOf 16 (byteAt [n, m] 0) = some c := hc ▸ indexOf_natByte c (by decide)
  intro ch taken
  refine ⟨fun h => refuse (chanSwapOwner_wrongState channel h), fun h ho => ?_, fun h ho hm => ?_,
    fun b hb ho => ?_⟩
  · exact refuse ((chanSwapOwner_taken (s := s.popInbound) channel h).trans (if_pos ho))
  · refine refuse ((chanSwapOwner_taken (s := s.popInbound) channel h).trans ((if_neg (not_not.2 ho)).trans ?_))
    rw [show indexOf 32 (byteAt [n, m] 1) = none from indexOf_eq_none.2 hm]
  · have bank : indexOf 32 (byteAt [n, m] 1) = some b := hb ▸ indexOf_natByte b (by decide)
    have answer (h : taken) := chanSwapOwner_bank (tag := tag) (s := s.popInbound) channel bank h ho
    refine ⟨fun h hs => ?_, fun h hs => ?_, fun h hs => ?_, fun h hs => ?_⟩
    · exact refuse ((answer h).trans (by rw [State.popInbound_judge, State.judge_free hs]))
    · exact refuse ((answer h).trans (by rw [State.popInbound_judge, State.judge_unusable hs]))
    · refine ⟨_, s.addRef_dropRef?_banks b ch.active, ?_⟩
      rw [← State.swapNow_eq]
      have swapped : chanSwapOwner tag [n, m] s.popInbound =
          ⟨(s.swapNow c b tag).popInbound, .accepted, [], []⟩ := by
        rw [answer (.inl h), State.popInbound_judge, State.judge_sealed hs, ← State.popInbound_swapNow]
        exact congrArg (Answer.done .accepted) (if_pos h)
      exact congrArg Host.Outcome.next (State.take_next (c := .chanSwap) ht rfl rfl swapped)
    · have notReady : (s.chan c).state ≠ .ready := fun hr => absurd (h.symm.trans hr) (by decide)
      have staged : chanSwapOwner tag [n, m] s.popInbound =
          ⟨(s.stageSwap c b tag).popInbound, .accepted, [], []⟩ := by
        rw [answer (.inr h), State.popInbound_judge, State.judge_sealed hs]
        exact congrArg (Answer.done .accepted) (if_neg notReady)
      exact congrArg Host.Outcome.next (State.take_next (c := .chanSwap) ht rfl rfl staged)

/-! ## CHAN_QUERY (R23) and CHAN_ROTATE (R24) -/

theorem clearFlag_iff {n flag : Byte} (h : flag.toNat < 2) : clearFlag [n, flag] = true ↔ flag = 1 := by
  show flag.getLsbD 0 = true ↔ _
  have : flag = 0 ∨ flag = 1 := by bv_omega
  rcases this with rfl | rfl <;> decide

theorem reservedOk_query {n flag : Byte} (h : flag.toNat < 2) : reservedOk .chanQuery [n, flag] = true :=
  decide_eq_true h

theorem chanQueryOwner_noChannel {p : List Byte} (s : State) (h : 16 ≤ (byteAt p 0).toNat) :
    chanQueryOwner p s = .refuse .chanQuery .badArg s := by
  rw [chanQueryOwner, indexOf_eq_none.2 h]

theorem chanQueryOwner_channel {p : List Byte} {s : State} {c : ChanId} (hc : indexOf 16 (byteAt p 0) = some c) :
    chanQueryOwner p s =
      ⟨if clearFlag p then s.modChan c fun ch => { ch with counters := .zero } else s,
       .ok, chanReport (s.chan c) (s.deliv c), []⟩ := by
  rw [chanQueryOwner, hc]

theorem chanRotateOwner_refused {p : List Byte} {s : State} (h : 4 ≤ (byteAt p 0).toNat ∨ 16 ≤ (byteAt p 1).toNat ∨
    ∃ c : ChanId, byteAt p 1 = natByte c.val ∧ byteAt p 0 ≠ natByte (s.chan c).config.cls.val) :
    chanRotateOwner p s = .refuse .chanRotate .badArg s := by
  unfold chanRotateOwner
  split
  · next k c hk hc =>
    refine if_neg fun e => ?_
    have hk' := indexOf_eq_some.1 hk
    have hc' := indexOf_eq_some.1 hc
    rcases h with h | h | ⟨x, hx, hne⟩
    · omega
    · omega
    · have hxc : x = c := by
        rw [hx, natByte_toNat (by omega)] at hc'
        exact Fin.ext hc'
      refine hne (BitVec.eq_of_toNat_eq ?_)
      rw [hxc, e, hk', natByte_toNat (by omega)]
  · rfl

theorem chanRotateOwner_class {p : List Byte} {s : State} {c : ChanId}
    (hk : indexOf 4 (byteAt p 0) = some (s.chan c).config.cls) (hc : indexOf 16 (byteAt p 1) = some c) :
    chanRotateOwner p s = .done .ok (s.modArb fun a => a.toHead c (s.chan c).config.cls) := by
  rw [chanRotateOwner, hk, hc]
  exact if_pos rfl

/-- Settles O48, by what the owners of CHAN_QUERY and CHAN_ROTATE answer in each case. -/
theorem queryReportsAndRotateMovesToTheHead : Obligations.QueryReportsAndRotateMovesToTheHead := by
  refine ⟨fun s tag n flag ht hf hn => ?_, fun s tag flag c ht hf => ?_, fun s tag k n ht h => ?_, fun s tag c => ?_⟩
  · exact congrArg Host.Outcome.next
      (State.take_refused (c := .chanQuery) ht rfl (reservedOk_query hf) (chanQueryOwner_noChannel _ hn))
  · intro ch d g
    have answer := chanQueryOwner_channel (p := [natByte c.val, flag]) (s := s.popInbound)
      (indexOf_natByte c (by decide))
    have cleared : (if clearFlag [natByte c.val, flag] then
        s.popInbound.modChan c fun ch => { ch with counters := .zero } else s.popInbound) =
        State.popInbound { s with
          channels := (if flag = 1 then s.channels.set c.val { ch with counters := ⟨0, 0, 0, 0, 0, 0⟩ }
            else s.channels) } := by
      by_cases h1 : flag = 1
      · rw [if_pos ((clearFlag_iff hf).2 h1), if_pos h1]; rfl
      · rw [if_neg (mt (clearFlag_iff hf).1 h1), if_neg h1]
    rw [cleared] at answer
    refine congrArg Host.Outcome.next
      ((State.take_next (c := .chanQuery) ht rfl (reservedOk_query hf) answer).trans
        (congrArg (State.answered _ tag 0x37 .ok) ?_))
    show chanReport ch d = _
    simp only [chanReport, ChanConfig.report, ChanDelivery.report, ChanCounters.report, List.append_assoc,
      List.cons_append, List.nil_append, ch, d, g]
  · exact congrArg Host.Outcome.next
      (State.take_refused (c := .chanRotate) ht rfl rfl (chanRotateOwner_refused (s := s.popInbound) h))
  · intro k ht
    have answer := chanRotateOwner_class (p := [natByte k.val, natByte c.val]) (s := s.popInbound) (c := c)
      (indexOf_natByte k (by decide)) (indexOf_natByte c (by decide))
    exact congrArg Host.Outcome.next (State.take_next (c := .chanRotate)
      (t := s.modArb fun a => a.toHead c k) (ns := []) ht rfl rfl answer)

/-! ## CHAN_ABORT (R19, R68) -/

theorem chanAbortOwner_noChannel {p : List Byte} (s : State) (h : 16 ≤ (byteAt p 0).toNat) :
    chanAbortOwner p s = .refuse .chanAbort .badArg s := by
  rw [chanAbortOwner, indexOf_eq_none.2 h]

theorem chanAbortOwner_channel {p : List Byte} {s : State} {c : ChanId} (hc : indexOf 16 (byteAt p 0) = some c) :
    chanAbortOwner p s =
      if (s.chan c).state.inRun then .done .ok ((s.endRun c .ready .aborted).strike c)
      else .refuse .chanAbort .wrongState s := by
  rw [chanAbortOwner, hc]

/-- A run ended at once, as one update of the state. -/
theorem State.endRun_eq (s : State) (c : ChanId) (st : ChanState) (ds : DoneStatus) :
    s.endRun c st ds = { s with
      channels := s.channels.set c.val { s.chan c with
        state := st, stopCause := none, staged := none, opSlot := (s.chan c).opSlot.finish ds }
      banks := (s.dropRef? (s.chan c).staged).banks
      delivery := s.delivery.set c.val { s.deliv c with
        slots := Vector.replicate 4 .free, pendingLost := 0, readyOrder := [], inflightOrder := []
        drainWatch := false }
      resend := s.resend.filter fun e => e.1 != c } := by
  unfold State.endRun
  rw [State.releaseStaged_modChan, State.discard_chan]
  cases (s.chan c).staged <;> rfl

theorem State.popInbound_endRun (s : State) (c : ChanId) (st : ChanState) (ds : DoneStatus) :
    s.popInbound.endRun c st ds = (s.endRun c st ds).popInbound := by
  rw [State.endRun_eq, State.endRun_eq, State.popInbound_dropRef?]
  rfl

/-! ## CHAN_CLEAR (R20) -/

theorem chanClearOwner_noChannel {p : List Byte} (s : State) (h : 16 ≤ (byteAt p 0).toNat) :
    chanClearOwner p s = .refuse .chanClear .badArg s := by
  rw [chanClearOwner, indexOf_eq_none.2 h]

theorem chanClearOwner_channel {p : List Byte} {s : State} {c : ChanId} (hc : indexOf 16 (byteAt p 0) = some c) :
    chanClearOwner p s =
      if (s.chan c).state.inRun then .refuse .chanClear .wrongState s else .done .ok (s.clearChannel c) := by
  rw [chanClearOwner, hc]
  cases hs : (s.chan c).state <;> simp [hs, ChanState.inRun]

/-- A channel returned to IDLE, as one update of the state. -/
theorem State.clearChannel_eq (s : State) (c : ChanId) :
    s.clearChannel c = { s with
      channels := s.channels.set c.val { s.chan c with
        config := .default, active := none, phase := 0, fill := 0, outIndex := 0
        flags := ⟨false, false, false, false⟩, counters := ⟨0, 0, 0, 0, 0, 0⟩, state := .idle }
      banks := (s.dropRef? (s.chan c).active).banks
      arbiter := { s.arbiter with
        rotation := if (s.chan c).config.cls = 3 then s.arbiter.rotation
          else (s.arbiter.rotation.set (s.chan c).config.cls.val
            ((s.arbiter.list (s.chan c).config.cls).filter (· != c))).set 3 (s.arbiter.list 3 ++ [c]) } } := by
  unfold State.clearChannel
  rw [State.configure_eq, State.dropRef?_eq]
  simp only [State.modChan, State.chan, Vector.set_set, Vector.getElem_set_self]
  rfl

theorem State.popInbound_clearChannel (s : State) (c : ChanId) :
    s.popInbound.clearChannel c = (s.clearChannel c).popInbound := by
  rw [State.clearChannel_eq, State.clearChannel_eq, State.popInbound_dropRef?]
  rfl

theorem OpSlot.finish_of_ne_pending {o : OpSlot} (h : ∀ op tag, o ≠ .pending op tag) (op : Operation)
    (status : DoneStatus) : o.finish status = o ∧ o.finishOp op status = o := by
  cases o with
  | pending op tag => exact absurd rfl (h op tag)
  | _ => exact ⟨rfl, rfl⟩

/-- Settles O46, by the table of R11 and what the owners of CHAN_ABORT and CHAN_CLEAR answer in each case. -/
theorem abortEndsTheRunAndClearReturnsToIdle : Obligations.AbortEndsTheRunAndClearReturnsToIdle := by
  have inRun {st : ChanState} (h1 : st ≠ .running) (h2 : st ≠ .stopping) : ¬ st.inRun = true := fun h =>
    (ChanState.inRun_iff.1 h).elim h1 h2
  refine ⟨fun op tag status => ⟨rfl, if_pos rfl, fun op' hne => if_neg hne, fun slot h => ?_⟩,
    fun s tag n ht => ⟨fun h => ?_, fun c hc => ?_⟩, fun s tag n ht => ⟨fun h => ?_, fun c hc => ?_⟩⟩
  · exact OpSlot.finish_of_ne_pending h op status
  · exact congrArg Host.Outcome.next
      (State.take_refused (c := .chanAbort) ht rfl rfl (chanAbortOwner_noChannel _ h))
  · have answer := chanAbortOwner_channel (p := [n, 0]) (s := s.popInbound) (c := c)
      (hc ▸ indexOf_natByte c (by decide))
    intro ch
    refine ⟨fun h1 h2 => ?_, fun h => ⟨_, s.dropRef?_bank ch.staged, ?_⟩⟩
    · exact congrArg Host.Outcome.next
        (State.take_refused (c := .chanAbort) ht rfl rfl (answer.trans (if_neg (inRun h1 h2))))
    · rw [if_pos (show (s.popInbound.chan c).state.inRun = true from ChanState.inRun_iff.2 h),
        State.popInbound_endRun, State.endRun_eq] at answer
      exact congrArg Host.Outcome.next (State.take_next (c := .chanAbort) (ns := []) ht rfl rfl answer)
  · exact congrArg Host.Outcome.next
      (State.take_refused (c := .chanClear) ht rfl rfl (chanClearOwner_noChannel _ h))
  · have answer := chanClearOwner_channel (p := [n, 0]) (s := s.popInbound) (c := c)
      (hc ▸ indexOf_natByte c (by decide))
    intro ch old
    refine ⟨fun h => ?_, fun h1 h2 => ⟨_, s.dropRef?_bank ch.active, ?_⟩⟩
    · exact congrArg Host.Outcome.next (State.take_refused (c := .chanClear) ht rfl rfl
        (answer.trans (if_pos (ChanState.inRun_iff.2 h))))
    · rw [if_neg (show ¬ (s.popInbound.chan c).state.inRun = true from inRun h1 h2),
        State.popInbound_clearChannel, State.clearChannel_eq] at answer
      exact congrArg Host.Outcome.next (State.take_next (c := .chanClear) (ns := []) ht rfl rfl answer)

end Sys2Proof.Machine
end

section
/-! PROOFS. The stops: CHAN_STOP and the watch stop request that waits, with the close made at once or left to the
completion of the dispatch in flight (O45). -/

namespace Sys2Proof.Machine

/-! ## The close as one update of the state -/

/-- Two vectors that differ at one index at most. -/
theorem vector_eq_set {α : Type} {n : Nat} {v w : Vector α n} {i : Nat} (hi : i < n)
    (h : ∀ (j : Nat) (hj : j < n), j ≠ i → w[j] = v[j]) : w = v.set i w[i] := by
  apply Vector.ext
  intro j hj
  rw [Vector.getElem_set]
  split
  · next e => subst e; rfl
  · next e => exact h j hj (Ne.symm e)

/-- What is read of the channels and their batches fixes them. -/
theorem State.channels_eq_set {s t : State} {c : ChanId} (h : ∀ j, j ≠ c → t.chan j = s.chan j) :
    t.channels = s.channels.set c.val (t.chan c) :=
  vector_eq_set c.isLt fun j hj hne => h ⟨j, hj⟩ fun e => hne (congrArg Fin.val e)

theorem State.delivery_eq_set {s t : State} {c : ChanId} (h : ∀ j, j ≠ c → t.deliv j = s.deliv j) :
    t.delivery = s.delivery.set c.val (t.deliv c) :=
  vector_eq_set c.isLt fun j hj hne => h ⟨j, hj⟩ fun e => hne (congrArg Fin.val e)

/-- The close writes the channel's record and its batches alone. -/
theorem State.closeBatch_eq (s : State) (c : ChanId) :
    (s.closeBatch c).1 = { s with
      channels := s.channels.set c.val ((s.closeBatch c).1.chan c)
      delivery := s.delivery.set c.val ((s.closeBatch c).1.deliv c) } := by
  rw [← State.channels_eq_set fun j hj => State.closeBatch_chan_ne s c j hj,
    ← State.delivery_eq_set fun j hj => State.closeBatch_deliv_ne s c j hj,
    ← s.closeBatch_link c, ← s.closeBatch_coeffMem c, ← s.closeBatch_pool c, ← s.closeBatch_banks c,
    ← s.closeBatch_lanes c, ← s.closeBatch_engine c, ← s.closeBatch_watches c, ← s.closeBatch_stopRequests c,
    ← s.closeBatch_resend c, ← s.closeBatch_arbiter c, ← s.closeBatch_pending c]

/-- The close is deferred exactly while the channel has an entry in the dispatch in flight. -/
theorem State.closeDeferred_iff {s : State} {c : ChanId} :
    s.closeDeferred c = true ↔ ∃ x, s.engine.dispatch = some x ∧ ∃ e ∈ x.snapshot, e.channel = c := by
  unfold State.closeDeferred
  split
  · next h => simp [h]
  · next d h => simp [h]

theorem State.closeAtStop_deferred {s : State} {c : ChanId}
    (h : ∃ x, s.engine.dispatch = some x ∧ ∃ e ∈ x.snapshot, e.channel = c) : s.closeAtStop c = (s, []) :=
  if_pos (State.closeDeferred_iff.2 h)

/-- The close of a STOPPING channel made at once. -/
theorem State.closeAtStop_closes {s : State} {c : ChanId} {ch : Channel} (hch : s.chan c = ch)
    (hs : ch.state = .stopping) (h : ¬ ∃ x, s.engine.dispatch = some x ∧ ∃ e ∈ x.snapshot, e.channel = c) :
    ∃ ch' d' ns, Closes c ch (s.deliv c) ch' d' ns ∧
      s.closeAtStop c =
        ({ s with channels := s.channels.set c.val ch', delivery := s.delivery.set c.val d' }, ns) := by
  subst hch
  exact ⟨_, _, _, s.closeBatch_closes c hs,
    (if_neg (mt State.closeDeferred_iff.1 h)).trans (Prod.ext (s.closeBatch_eq c) rfl)⟩

/-! ## The watch stop request that waits (R21) -/

/-- A channel stopped by a watch (R21). -/
def Channel.watchStopped (ch : Channel) : Channel :=
  { ch with
    state := .stopping, stopCause := some .watch, staged := none
    opSlot := ch.opSlot.finishOp .swap .cancelled }

/-- A request taken for a RUNNING channel, as one update of the state. -/
theorem State.stopRequest_eq {s : State} {c : ChanId} (h : (s.chan c).state = .running) :
    s.stopRequest c = { s with
      channels := s.channels.set c.val (s.chan c).watchStopped
      banks := (s.dropRef? (s.chan c).staged).banks
      stopRequests := s.stopRequests.filter (· != c) } := by
  unfold State.stopRequest
  rw [h]
  dsimp only
  rw [State.releaseStaged_modChan]
  cases (s.chan c).staged <;> rfl

theorem step_takeStopRequest {s : State} (h : s.pending = []) : step s = .next s.takeStopRequest.settle := by
  rw [step, h]

/-- The oldest request that waits, for a channel that is RUNNING: the state in which its close is judged. -/
theorem State.takeStopRequest_stopped {s : State} {c : ChanId} {rest : List ChanId}
    (h : s.stopRequests = c :: rest) (hr : (s.chan c).state = .running) :
    s.takeStopRequest = State.closeAtStop { s with
      channels := s.channels.set c.val (s.chan c).watchStopped
      banks := (s.dropRef? (s.chan c).staged).banks
      stopRequests := rest.filter (· != c) } c := by
  have stopped := State.stopRequest_eq (s := { s with stopRequests := rest }) hr
  rw [State.takeStopRequest_running s c rest h hr, stopped]
  show State.closeAtStop { s with
      channels := s.channels.set c.val (s.chan c).watchStopped
      banks := (State.dropRef? { s with stopRequests := rest } (s.chan c).staged).banks
      stopRequests := rest.filter (· != c) } c = _
  cases (s.chan c).staged <;> rfl

/-! ## CHAN_STOP (R13, R14) -/

/-- A channel stopped by a CHAN_STOP with this tag (R13). -/
def Channel.commandStopped (ch : Channel) (tag : Byte) : Channel :=
  { ch with state := .stopping, stopCause := some .command, opSlot := .pending .stop tag }

theorem chanStopOwner_noChannel {tag : Byte} {p : List Byte} (s : State) (h : 16 ≤ (byteAt p 0).toNat) :
    chanStopOwner tag p s = .refuse .chanStop .badArg s := by
  rw [chanStopOwner, indexOf_eq_none.2 h]

theorem chanStopOwner_wrongState {tag : Byte} {p : List Byte} {s : State} {c : ChanId}
    (hc : indexOf 16 (byteAt p 0) = some c) (h : (s.chan c).state ≠ .running) :
    chanStopOwner tag p s = .refuse .chanStop .wrongState s := by
  rw [chanStopOwner, hc]
  cases hs : (s.chan c).state <;> simp [hs] at h ⊢

theorem chanStopOwner_running {tag : Byte} {p : List Byte} {s : State} {c : ChanId}
    (hc : indexOf 16 (byteAt p 0) = some c) (h : (s.chan c).state = .running) :
    chanStopOwner tag p s =
      if (s.chan c).opSlot ≠ .none then .refuse .chanStop .busy s
      else ⟨(s.stopChannel c tag).1, .accepted, [], (s.stopChannel c tag).2⟩ := by
  rw [chanStopOwner, hc]
  simp only [h]

/-- The state in which the close of a CHAN_STOP is judged. -/
theorem State.stopChannel_eq (s : State) (c : ChanId) (tag : Byte) :
    s.stopChannel c tag = State.closeAtStop { s with
      channels := s.channels.set c.val ((s.chan c).commandStopped tag)
      stopRequests := s.stopRequests.filter (· != c) } c := rfl

section
variable {s : State} {tag n : Byte} {c : ChanId}

/-- CHAN_STOP with the channel in the dispatch in flight: the close waits. -/
theorem exec_chanStop_deferred (ht : s.Takes ⟨0x33, tag, [n, 0]⟩) (hc : n = natByte c.val)
    (hr : (s.chan c).state = .running) (ho : (s.chan c).opSlot = .none)
    (h : ∃ x, s.engine.dispatch = some x ∧ ∃ e ∈ x.snapshot, e.channel = c) :
    exec (.chanStop tag [n, 0]) s = .next
      (State.answered { s with
        channels := s.channels.set c.val ((s.chan c).commandStopped tag)
        stopRequests := s.stopRequests.filter (· != c) } tag 0x33 .accepted []) := by
  have answer := chanStopOwner_running (tag := tag) (p := [n, 0]) (s := s.popInbound) (c := c)
    (hc ▸ indexOf_natByte c (by decide)) hr
  rw [if_neg (show ¬ (s.popInbound.chan c).opSlot ≠ .none from not_not.2 ho), State.stopChannel_eq, State.closeAtStop_deferred (by exact h)] at answer
  exact congrArg Host.Outcome.next (State.take_next (c := .chanStop) (ns := []) ht rfl rfl answer)

/-- CHAN_STOP with no entry in flight: the close is made at once. -/
theorem exec_chanStop_closes (ht : s.Takes ⟨0x33, tag, [n, 0]⟩) (hc : n = natByte c.val)
    (hr : (s.chan c).state = .running) (ho : (s.chan c).opSlot = .none)
    (h : ∀ x, s.engine.dispatch = some x → ∀ e ∈ x.snapshot, e.channel ≠ c) :
    ∃ ch' d' ns, Closes c ((s.chan c).commandStopped tag) (s.deliv c) ch' d' ns ∧
      exec (.chanStop tag [n, 0]) s = .next
        ((State.raiseAll { s with
          stopRequests := s.stopRequests.filter (· != c)
          channels := s.channels.set c.val ch'
          delivery := s.delivery.set c.val d' } ns).answered tag 0x33 .accepted []) := by
  have answer := chanStopOwner_running (tag := tag) (p := [n, 0]) (s := s.popInbound) (c := c)
    (hc ▸ indexOf_natByte c (by decide)) hr
  rw [if_neg (show ¬ (s.popInbound.chan c).opSlot ≠ .none from not_not.2 ho), State.stopChannel_eq] at answer
  obtain ⟨ch', d', ns, closes, hclose⟩ := State.closeAtStop_closes (c := c)
    (s := { s.popInbound with
      channels := s.channels.set c.val ((s.chan c).commandStopped tag)
      stopRequests := s.stopRequests.filter (· != c) })
    (Vector.getElem_set_self _) rfl (fun ⟨x, hx, e, he, hec⟩ => h x hx e he hec)
  refine ⟨ch', d', ns, closes, ?_⟩
  have closed : chanStopOwner tag [n, 0] s.popInbound = ⟨State.popInbound { s with
      stopRequests := s.stopRequests.filter (· != c)
      channels := s.channels.set c.val ch'
      delivery := s.delivery.set c.val d' }, .accepted, [], ns⟩ := by
    refine answer.trans ?_
    refine (congrArg (fun r : Raising => (⟨r.1, .accepted, [], r.2⟩ : Answer)) hclose).trans ?_
    simp only [Vector.set_set]
    rfl
  exact congrArg Host.Outcome.next (State.take_next (c := .chanStop) ht rfl rfl closed)

end

/-- The notice of a pending loss raised where there is one. -/
theorem State.raiseAll_lossNotice (t : State) (c : ChanId) (d : ChanDelivery) :
    t.raiseAll (lossNotice c d) =
      if d.pendingLost = 0 then t else t.raise (.deliveryLost c d.seqCounter (d.pendingLost.zeroExtend 32)) := by
  unfold lossNotice
  split <;> rfl

/-- The oldest watch stop request that waits, taken on an empty queue. -/
theorem step_takes_watchStopRequest (s : State) (c : ChanId) (rest : List ChanId) (hp : s.pending = [])
    (hq : s.stopRequests = c :: rest) :
    let inFlight := ∃ x, s.engine.dispatch = some x ∧ ∃ e ∈ x.snapshot, e.channel = c
    ((s.chan c).state ≠ .running → step s = .next { s with stopRequests := rest }) ∧
    ((s.chan c).state = .running →
      (inFlight → step s = .next { s with
        stopRequests := rest.filter (· != c)
        banks := (s.dropRef? (s.chan c).staged).banks
        channels := s.channels.set c.val (s.chan c).watchStopped }) ∧
      (¬ inFlight → ∃ ch' d' ns, Closes c (s.chan c).watchStopped (s.deliv c) ch' d' ns ∧
        step s = .next (State.raiseAll { s with
          stopRequests := rest.filter (· != c)
          banks := (s.dropRef? (s.chan c).staged).banks
          channels := s.channels.set c.val ch'
          delivery := s.delivery.set c.val d' } ns))) := by
  intro inFlight
  rw [step_takeStopRequest hp]
  refine ⟨fun h => ?_, fun h => ⟨fun hf => ?_, fun hf => ?_⟩⟩
  · rw [State.takeStopRequest_ignored s c rest hq h]
    rfl
  · rw [State.takeStopRequest_stopped hq h, State.closeAtStop_deferred (by exact hf)]
    rfl
  · obtain ⟨ch', d', ns, closes, hclose⟩ := State.closeAtStop_closes (c := c)
      (s := { s with
        channels := s.channels.set c.val (s.chan c).watchStopped
        banks := (s.dropRef? (s.chan c).staged).banks
        stopRequests := rest.filter (· != c) })
      (Vector.getElem_set_self _) rfl hf
    refine ⟨ch', d', ns, closes, ?_⟩
    rw [State.takeStopRequest_stopped hq h, hclose]
    simp only [Vector.set_set]
    rfl

/-- Settles O45: a request or a CHAN_STOP makes the channel STOPPING, and its close is the one of `Closes`. -/
theorem stopClosesTheBatchBeingFilled : Obligations.StopClosesTheBatchBeingFilled := by
  refine ⟨fun s c rest hp hq => ?_, fun s tag n ht => ⟨fun h => ?_, fun c hc => ?_⟩⟩
  · intro u ch stopping inFlight
    obtain ⟨ignored, taken⟩ := step_takes_watchStopRequest s c rest hp hq
    exact ⟨ignored, fun h => ⟨_, s.dropRef?_bank ch.staged, taken h⟩⟩
  · exact congrArg Host.Outcome.next
      (State.take_refused (c := .chanStop) ht rfl rfl (chanStopOwner_noChannel _ h))
  · intro ch d stopping stopped u absent
    have channel : indexOf 16 (byteAt [n, 0] 0) = some c := hc ▸ indexOf_natByte c (by decide)
    refine ⟨fun h => ?_, fun h ho => ?_, fun x e h ho hx he hec => ?_, fun b h ho ha hd hb hl => ?_,
      fun h ho ha hd hf hx => ?_, fun h ho ha hd hf => ?_⟩
    · exact congrArg Host.Outcome.next (State.take_refused (c := .chanStop) ht rfl rfl
        (chanStopOwner_wrongState (s := s.popInbound) channel h))
    · exact congrArg Host.Outcome.next (State.take_refused (c := .chanStop) ht rfl rfl
        ((chanStopOwner_running (s := s.popInbound) channel h).trans (if_pos ho)))
    · exact exec_chanStop_deferred ht hc h ho ⟨x, hx, e, he, hec⟩
    · obtain ⟨ch', d', ns, closes, hexec⟩ := exec_chanStop_closes ht hc h ho ha
      obtain ⟨rfl, rfl, rfl⟩ := closes.filling b hd hb hl
      exact hexec
    · obtain ⟨ch', d', ns, closes, hexec⟩ := exec_chanStop_closes ht hc h ho ha
      obtain ⟨rfl, rfl, rfl⟩ := closes.drains hd hf hx
      rw [hexec, State.raiseAll_lossNotice]
      rfl
    · obtain ⟨ch', d', ns, closes, hexec⟩ := exec_chanStop_closes ht hc h ho ha
      obtain ⟨rfl, rfl, rfl⟩ := closes.command hd hf rfl
      rw [hexec, State.raiseAll_lossNotice]
      rfl

end Sys2Proof.Machine
end

section
/-! PROOFS. What one event can do to the bank store, said once: an event is a sequence of changes, each of them one
of a short list, and every law of the bank store is then kept by a case split on that list. -/

namespace Sys2Proof.Machine

/-! ## What the laws of the bank store speak of -/

/-- How often a channel names a bank: as its active and as its staged bank. -/
def Channel.uses (ch : Channel) (b : BankId) : Nat :=
  (if ch.active = some b then 1 else 0) + if ch.staged = some b then 1 else 0

/-- The dispatch in flight has noted the bank (R39). -/
def State.notes (s : State) (b : BankId) : Prop :=
  ∃ d, s.engine.dispatch = some d ∧ ∃ e ∈ d.snapshot, e.bank = some b

/-- A channel names the same banks. -/
def Channel.SameNames (ch ch' : Channel) : Prop := ch'.active = ch.active ∧ ch'.staged = ch.staged

/-- Nothing that the laws of the bank store speak of differs. -/
structure State.SameStore (s t : State) : Prop where
  coeffMem : t.coeffMem = s.coeffMem := by simp
  pool     : t.pool = s.pool := by simp
  banks    : t.banks = s.banks := by simp
  names    : ∀ c, (s.chan c).SameNames (t.chan c) := by simp [Channel.SameNames]
  notes    : ∀ b, t.notes b ↔ s.notes b := by simp [State.notes]

theorem State.SameStore.refl (s : State) : s.SameStore s where

theorem State.SameStore.trans {s t u : State} (h : s.SameStore t) (h' : t.SameStore u) : s.SameStore u where
  coeffMem := h'.coeffMem.trans h.coeffMem
  pool := h'.pool.trans h.pool
  banks := h'.banks.trans h.banks
  names c := ⟨(h'.names c).1.trans (h.names c).1, (h'.names c).2.trans (h.names c).2⟩
  notes b := (h'.notes b).trans (h.notes b)

/-- A sameness whose last part is given first. -/
theorem State.SameStore.after {s t u : State} (h : t.SameStore u) (h' : s.SameStore t) : s.SameStore u :=
  h'.trans h

theorem State.SameStore.bank {s t : State} (h : s.SameStore t) (b : BankId) : t.bank b = s.bank b := by
  simp [State.bank, h.banks]

/-- A channel record replaced by one that names the same banks. -/
theorem State.modChan_sameStore (s : State) (c : ChanId) (f : Channel → Channel)
    (h : ∀ ch, Channel.SameNames ch (f ch) := by intro ch; exact ⟨rfl, rfl⟩) : s.SameStore (s.modChan c f) where
  names j := by
    rw [State.modChan_chan]
    split
    · next e => rw [e]; exact h _
    · exact ⟨rfl, rfl⟩

theorem State.modDeliv_sameStore (s : State) (c : ChanId) (f : ChanDelivery → ChanDelivery) :
    s.SameStore (s.modDeliv c f) where

theorem State.modLink_sameStore (s : State) (f : Link → Link) : s.SameStore (s.modLink f) where

theorem State.modArb_sameStore (s : State) (f : Arbiter → Arbiter) : s.SameStore (s.modArb f) where

theorem State.raiseAll_sameStore (s : State) (ns : List Notice) : s.SameStore (s.raiseAll ns) where

/-- Only reference counts differ: one is added to the bank `add`, and one is then subtracted from the bank `drop`. -/
structure State.Counted (s t : State) (add drop : Option BankId) : Prop where
  bank : ∀ b, t.bank b = { s.bank b with
    refs := (s.bank b).refs + (if add = some b then 1 else 0) - if drop = some b then 1 else 0 }
  coeffMem : t.coeffMem = s.coeffMem := by simp
  pool     : t.pool = s.pool := by simp
  chan     : ∀ c, t.chan c = s.chan c := by simp
  notes    : ∀ b, t.notes b ↔ s.notes b := by simp [State.notes]

theorem State.dropRef?_counted (s : State) (o : Option BankId) : s.Counted (s.dropRef? o) none o where
  bank b := by rw [State.dropRef?_bank]; simp

theorem State.addRef_counted (s : State) (b : BankId) : s.Counted (s.addRef b) (some b) none where
  bank x := by rw [State.addRef_bank]; simp [eq_comm]

theorem State.addRef_dropRef?_counted (s : State) (b : BankId) (o : Option BankId) :
    s.Counted ((s.addRef b).dropRef? o) (some b) o where
  bank x := by rw [State.dropRef?_bank, State.addRef_bank]; simp [eq_comm]

/-! ## Changes of the bank store -/

/-- One of the changes that events make to the bank store. `lawful` is what a claim on a bank may assume of the
channels. -/
inductive State.StoreChange (lawful : Prop) : State → State → Prop
  | same {s t : State} (h : s.SameStore t) : StoreChange lawful s t
  /-- A word of coefficient memory written, or its mark found bad. -/
  | write (s : State) (a : Nat) (w : StoredWord) :
      StoreChange lawful s { s with coeffMem := memWrite s.coeffMem a w }
  | load {s : State} (b : BankId) (n : Bank → Nat) (h : (s.bank b).state = .opened)
      (hn : n (s.bank b) ≤ (s.bank b).taps) : StoreChange lawful s (s.modBank b fun k => { k with loaded := n k })
  | seals {s : State} (b : BankId) (h : (s.bank b).state = .opened) :
      StoreChange lawful s (s.modBank b fun k => { k with state := .sealed })
  | damage (s : State) (b : BankId) : StoreChange lawful s (s.damageBank b)
  | opens {s : State} (b : BankId) (n : Nat) (h : (s.bank b).state = .free) (hn : 1 ≤ n ∧ n ≤ 256)
      (hp : pagesFor n ≤ s.pool.length) : StoreChange lawful s (s.openBank b n)
  | frees {s : State} (b : BankId) (h : (s.bank b).state ≠ .free) (hr : (s.bank b).refs = 0)
      (hh : (s.bank b).hold = false) : StoreChange lawful s (s.freeBank b)
  /-- Claims on reference counts, with the channel record that they were made for (R38). -/
  | claim {s u : State} {add drop : Option BankId} (c : ChanId) (f : Channel → Channel) (hu : s.Counted u add drop)
      (hs : ∀ b, add = some b → (s.bank b).state = .sealed)
      (h : lawful → ∀ b, (f (s.chan c)).uses b + (if drop = some b then 1 else 0) =
        (s.chan c).uses b + if add = some b then 1 else 0) :
      StoreChange lawful s (u.modChan c f)
  | start {s : State} (l : LaneId) (x : FifoEntry) (h : s.engine.dispatch = none) :
      StoreChange lawful s (s.startDispatch l x)
  | finish {s : State} (d : Dispatch) (h : s.engine.dispatch = some d) :
      StoreChange lawful s ((s.setHolds d.snapshot false).setDispatch none)
  | reset (s : State) : StoreChange lawful s s.resetBlocks

/-- A sequence of changes of the bank store. -/
def State.StoreChanges (lawful : Prop) : State → State → Prop := Relation.ReflTransGen (State.StoreChange lawful)

section
variable {lawful : Prop}

theorem State.StoreChanges.refl (s : State) : s.StoreChanges lawful s := Relation.ReflTransGen.refl

theorem State.StoreChanges.trans {s t u : State} (h : s.StoreChanges lawful t) (h' : t.StoreChanges lawful u) :
    s.StoreChanges lawful u := Relation.ReflTransGen.trans h h'

/-- A sequence of changes, the last of them given first. -/
theorem State.StoreChanges.after {s t u : State} (h : t.StoreChanges lawful u) (h' : s.StoreChanges lawful t) :
    s.StoreChanges lawful u := h'.trans h

theorem State.StoreChange.changes {s t : State} (h : s.StoreChange lawful t) : s.StoreChanges lawful t :=
  Relation.ReflTransGen.single h

theorem State.SameStore.changes {s t : State} (h : s.SameStore t) : s.StoreChanges lawful t :=
  (State.StoreChange.same h).changes

/-- What every change of the bank store keeps, a sequence of them keeps. -/
theorem State.StoreChanges.keeps {P : State → Prop} (h : ∀ s t, s.StoreChange lawful t → P s → P t)
    {s t : State} (hc : s.StoreChanges lawful t) (hs : P s) : P t := by
  induction hc with
  | refl => exact hs
  | tail _ hbc ih => exact h _ _ hbc ih

end

/-! ## Banks after a bank was opened or freed, and after holds were set -/

theorem State.openBank_bank (s : State) (b x : BankId) (n : Nat) :
    (s.openBank b n).bank x = if x = b then
      { s.bank b with state := .opened, taps := n, pages := s.pool.take (pagesFor n), loaded := 0 }
    else s.bank x :=
  s.modBank_bank b x fun k =>
    { k with state := .opened, taps := n, pages := s.pool.take (pagesFor n), loaded := 0 }

theorem State.freeBank_bank (s : State) (b x : BankId) :
    (s.freeBank b).bank x = if x = b then Bank.free else s.bank x := s.modBank_bank b x fun _ => Bank.free

theorem State.damageBank_bank (s : State) (b x : BankId) :
    (s.damageBank b).bank x =
      if x = b ∧ (s.bank x).state = .sealed then { s.bank x with state := .damaged } else s.bank x := by
  rw [State.damageBank, State.modBank_bank]
  split
  · next e => subst e; simp
  · next e => simp [e]

/-- A hold is set or cleared of the banks noted, and of no other (R39). -/
theorem State.setHolds_bank (s : State) (es : List SnapEntry) (h : Bool) (x : BankId) :
    (s.setHolds es h).bank x =
      { s.bank x with hold := if ∃ e ∈ es, e.bank = some x then h else (s.bank x).hold } := by
  have noted : (∃ e ∈ es, e.bank = some x) ↔ x ∈ es.filterMap (·.bank) := List.mem_filterMap.symm
  simp only [noted, State.setHolds]
  induction es.filterMap (·.bank) generalizing s with
  | nil => simp
  | cons b bs ih =>
    rw [List.foldl_cons, ih, State.modBank_bank]
    by_cases hb : x = b <;> by_cases hm : x ∈ bs <;> simp [hb, hm]

/-! ## Coefficient memory (log entries 6 and 18) -/

theorem State.StoreChange.memory_wf {lawful : Prop} {s t : State} (h : s.StoreChange lawful t)
    (hm : Memory.wf s.coeffMem = true) : Memory.wf t.coeffMem = true := by
  cases h with
  | same h => rw [h.coeffMem]; exact hm
  | write a w => exact memWrite_wf hm a w
  | claim c f hu => rw [State.modChan_coeffMem, hu.coeffMem]; exact hm
  | start l x => simpa using hm
  | finish d => simpa using hm
  | _ => exact hm

/-! ## The page law (R28, R29) -/

/-- A sum over an index range, where one summand may differ. -/
theorem sum_map_finRange_off {n : Nat} {f g : Fin n → Nat} (c : Fin n) (h : ∀ j, j ≠ c → g j = f j) :
    ((List.finRange n).map g).sum + f c = ((List.finRange n).map f).sum + g c := by
  rw [← Fin.sum_univ_def, ← Fin.sum_univ_def, ← Finset.add_sum_erase _ f (Finset.mem_univ c),
    ← Finset.add_sum_erase _ g (Finset.mem_univ c),
    Finset.sum_congr rfl fun j hj => h j (Finset.ne_of_mem_erase hj)]
  ac_rfl

/-- The page law speaks of the pool and of what the banks own. -/
theorem State.PageLaw.of_same {s t : State} (h : s.PageLaw) (hp : t.pool = s.pool)
    (hb : ∀ b, (t.bank b).pages = (s.bank b).pages ∧ (t.bank b).taps = (s.bank b).taps ∧
      (t.bank b).loaded ≤ (t.bank b).taps ∧ ((t.bank b).state = .free ↔ (s.bank b).state = .free)) :
    t.PageLaw where
  once p := by
    simp only [State.owners, hp, fun b => (hb b).1]
    exact h.once p
  order := hp ▸ h.order
  loads b := (hb b).2.2.1
  free b hf := by
    obtain ⟨pages, taps, -, state⟩ := hb b
    rw [pages, taps]
    exact h.free b (state.1 hf)
  owned b hf := by
    obtain ⟨pages, taps, -, state⟩ := hb b
    rw [pages, taps]
    exact h.owned b (mt state.2 hf)

/-- How often a page is owned after the pool and one bank have changed. -/
theorem State.owners_off {s t : State} (b : BankId) (p : PageId) (h : ∀ x, x ≠ b → t.bank x = s.bank x) :
    t.owners p + s.pool.count p + (s.bank b).pages.count p =
      s.owners p + t.pool.count p + (t.bank b).pages.count p := by
  have banks := sum_map_finRange_off (f := fun x => (s.bank x).pages.count p)
    (g := fun x => (t.bank x).pages.count p) b fun x hx => by rw [h x hx]
  simp only [State.owners]
  linarith

/-- Pages returned to a pool that owns none of them, each once. -/
theorem count_foldl_insertAsc {n : Nat} (ps l : List (Fin n)) (h : ∀ p, l.count p + ps.count p ≤ 1) (p : Fin n) :
    (ps.foldl (fun l x => insertAsc x l) l).count p = l.count p + ps.count p := by
  induction ps generalizing l with
  | nil => rfl
  | cons x ps ih =>
    have fresh : x ∉ l := fun hx => by
      have once := h x
      have := List.count_pos_iff.2 hx
      rw [List.count_cons_self] at once
      omega
    have counted := count_insertAsc x (l := l) (h := fresh)
    rw [List.foldl_cons, ih _ fun q => ?_, counted, List.count_cons]
    · simp only [beq_iff_eq]; omega
    · have once := h q
      rw [List.count_cons] at once
      rw [counted]
      simp only [beq_iff_eq] at once
      omega

theorem foldl_insertAsc_pairwise {n : Nat} (ps : List (Fin n)) {l : List (Fin n)} (h : l.Pairwise (· < ·)) :
    (ps.foldl (fun l x => insertAsc x l) l).Pairwise (· < ·) := by
  induction ps generalizing l with
  | nil => exact h
  | cons x ps ih => exact ih (insertAsc_pairwise x h)

theorem mem_foldl_insertAsc {n : Nat} (ps l : List (Fin n)) (x : Fin n) :
    x ∈ ps.foldl (fun l x => insertAsc x l) l ↔ x ∈ l ∨ x ∈ ps := by
  induction ps generalizing l with
  | nil => simp
  | cons y ps ih => rw [List.foldl_cons, ih, mem_insertAsc, List.mem_cons]; tauto

/-- A bank opened keeps the page law (R32). -/
theorem State.PageLaw.openBank {s : State} (h : s.PageLaw) {b : BankId} {n : Nat} (hf : (s.bank b).state = .free)
    (hn : 1 ≤ n ∧ n ≤ 256) (hp : pagesFor n ≤ s.pool.length) : (s.openBank b n).PageLaw := by
  have law (P : Bank → Prop) (hs : ∀ x, P (s.bank x)) (hb : P { s.bank b with
      state := .opened, taps := n, pages := s.pool.take (pagesFor n), loaded := 0 }) (x : BankId) :
      P ((s.openBank b n).bank x) := by
    rw [State.openBank_bank]
    split
    · exact hb
    · exact hs x
  refine ⟨fun p => ?_, h.order.sublist (List.drop_sublist _ _),
    law (fun k => k.loaded ≤ k.taps) h.loads (Nat.zero_le _),
    law (fun k => k.state = .free → k.taps = 0 ∧ k.pages = []) h.free nofun,
    law (fun k => k.state ≠ .free → 1 ≤ k.taps ∧ k.taps ≤ 256 ∧ k.pages.length = pagesFor k.taps) h.owned
      fun _ => ⟨hn.1, hn.2, List.length_take_of_le hp⟩⟩
  have moved := State.owners_off (s := s) (t := s.openBank b n) b p fun x hx => by
    rw [State.openBank_bank, if_neg hx]
  have split : (s.pool.take (pagesFor n)).count p + (s.pool.drop (pagesFor n)).count p = s.pool.count p := by
    rw [← List.count_append, List.take_append_drop]
  have unowned : (s.bank b).pages.count p = 0 := by rw [(h.free b hf).2]; rfl
  have taken : ((s.openBank b n).bank b).pages = s.pool.take (pagesFor n) := by
    rw [State.openBank_bank, if_pos rfl]
  have left : (s.openBank b n).pool = s.pool.drop (pagesFor n) := rfl
  rw [taken, left] at moved
  have := h.once p
  omega

/-- The pool and a bank own a page once at most. -/
theorem State.PageLaw.count_le {s : State} (h : s.PageLaw) (b : BankId) (p : PageId) :
    s.pool.count p + (s.bank b).pages.count p ≤ 1 := by
  have owned : (s.bank b).pages.count p ≤ ((List.finRange 32).map fun x => (s.bank x).pages.count p).sum :=
    List.le_sum_of_mem (List.mem_map_of_mem (List.mem_finRange b))
  exact (Nat.add_le_add_left owned _).trans (h.once p).le

/-- A bank freed keeps the page law (R36). -/
theorem State.PageLaw.freeBank {s : State} (h : s.PageLaw) (b : BankId) : (s.freeBank b).PageLaw := by
  have law (P : Bank → Prop) (hs : ∀ x, P (s.bank x)) (hb : P Bank.free) (x : BankId) :
      P ((s.freeBank b).bank x) := by
    rw [State.freeBank_bank]
    split
    · exact hb
    · exact hs x
  refine ⟨fun p => ?_, foldl_insertAsc_pairwise _ h.order, law (fun k => k.loaded ≤ k.taps) h.loads le_rfl,
    law (fun k => k.state = .free → k.taps = 0 ∧ k.pages = []) h.free fun _ => ⟨rfl, rfl⟩,
    law (fun k => k.state ≠ .free → 1 ≤ k.taps ∧ k.taps ≤ 256 ∧ k.pages.length = pagesFor k.taps) h.owned
      fun hf => absurd rfl hf⟩
  have moved := State.owners_off (s := s) (t := s.freeBank b) b p fun x hx => by
    rw [State.freeBank_bank, if_neg hx]
  have returned : (s.freeBank b).pool.count p = s.pool.count p + (s.bank b).pages.count p :=
    count_foldl_insertAsc _ _ (h.count_le b) p
  have returnedAll : ((s.freeBank b).bank b).pages.count p = 0 := by rw [State.freeBank_bank, if_pos rfl]; rfl
  have := h.once p
  omega

/-- Every page is in the pool after a reset of the blocks (R44). -/
theorem State.resetBlocks_pageLaw (s : State) : s.resetBlocks.PageLaw where
  once p := by
    have pool : s.resetBlocks.pool.count p = 1 :=
      List.count_eq_one_of_mem (List.nodup_finRange 64) (List.mem_finRange p)
    simp [State.owners, pool, Bank.free]
  order := List.pairwise_lt_finRange 64
  loads b := by rw [State.resetBlocks_bank]; exact le_rfl
  free b _ := by rw [State.resetBlocks_bank]; exact ⟨rfl, rfl⟩
  owned b hf := by rw [State.resetBlocks_bank] at hf; exact absurd rfl hf

theorem State.StoreChange.pageLaw {lawful : Prop} {s t : State} (h : s.StoreChange lawful t) (hl : s.PageLaw) :
    t.PageLaw := by
  cases h with
  | same h => exact hl.of_same h.pool fun b => by rw [h.bank]; exact ⟨rfl, rfl, hl.loads b, Iff.rfl⟩
  | write a w => exact hl.of_same rfl fun b => ⟨rfl, rfl, hl.loads b, Iff.rfl⟩
  | load b n _ hn =>
    refine hl.of_same rfl fun x => ?_
    rw [State.modBank_bank]
    split
    · next e => rw [e]; exact ⟨rfl, rfl, hn, Iff.rfl⟩
    · exact ⟨rfl, rfl, hl.loads x, Iff.rfl⟩
  | seals b ho =>
    refine hl.of_same rfl fun x => ?_
    rw [State.modBank_bank]
    split
    · next e => rw [e]; exact ⟨rfl, rfl, hl.loads b, by simp [ho]⟩
    · exact ⟨rfl, rfl, hl.loads x, Iff.rfl⟩
  | damage b =>
    refine hl.of_same rfl fun x => ?_
    rw [State.damageBank_bank]
    split
    · next e => exact ⟨rfl, rfl, hl.loads x, by simp [e.2]⟩
    · exact ⟨rfl, rfl, hl.loads x, Iff.rfl⟩
  | opens b n hf hn hp => exact hl.openBank hf hn hp
  | frees b => exact hl.freeBank b
  | claim c f hu =>
    refine hl.of_same hu.pool fun b => ?_
    rw [State.modChan_bank, hu.bank]
    exact ⟨rfl, rfl, hl.loads b, Iff.rfl⟩
  | start l x =>
    refine hl.of_same (by simp) fun b => ?_
    have held := (s.modLane l Lane.popHead).setHolds_bank (s.snapshot l x.slot) true b
    rw [show (s.startDispatch l x).bank b = _ from held]
    exact ⟨rfl, rfl, hl.loads b, Iff.rfl⟩
  | finish d =>
    refine hl.of_same (by simp) fun b => ?_
    rw [State.setDispatch_bank, State.setHolds_bank]
    exact ⟨rfl, rfl, hl.loads b, Iff.rfl⟩
  | reset => exact s.resetBlocks_pageLaw

/-! ## The use law (R30, R38, R39) -/

theorem countP_eq_sum_map {α : Type} (p : α → Bool) (l : List α) :
    l.countP p = (l.map fun x => if p x then 1 else 0).sum := by
  induction l with
  | nil => rfl
  | cons x l ih => rw [List.countP_cons, List.map_cons, List.sum_cons, ih, Nat.add_comm]

/-- The references of a bank are its uses by the channels. -/
theorem State.references_eq (s : State) (b : BankId) :
    s.references b = ((List.finRange 16).map fun c => (s.chan c).uses b).sum := by
  simp only [State.references, countP_eq_sum_map, beq_iff_eq, Channel.uses, List.sum_map_add]

theorem State.references_congr {s t : State} (h : ∀ c, (s.chan c).SameNames (t.chan c)) (b : BankId) :
    t.references b = s.references b := by
  simp only [State.references, fun c => (h c).1, fun c => (h c).2]

/-- A bank that a channel names is referenced. -/
theorem State.references_pos {s : State} {c : ChanId} {b : BankId} (h : (s.chan c).active = some b) :
    0 < s.references b :=
  Nat.add_pos_left (List.countP_pos_iff.2 ⟨c, List.mem_finRange c, by simp [h]⟩) _

/-- The use law speaks of counts, of holds and of the banks in use. -/
theorem State.UseLaw.of_same {s t : State} (h : s.UseLaw) (hr : ∀ b, t.references b = s.references b)
    (hn : ∀ b, t.notes b ↔ s.notes b)
    (hb : ∀ b, (t.bank b).refs = (s.bank b).refs ∧ (t.bank b).hold = (s.bank b).hold ∧
      ((s.bank b).refs ≠ 0 ∨ (s.bank b).hold = true → (s.bank b).state.usable → (t.bank b).state.usable)) :
    t.UseLaw where
  held b := by
    rw [(hb b).2.1]
    exact (h.held b).trans (hn b).symm
  refs b := by rw [(hb b).1, hr]; exact h.refs b
  used b hu := by
    obtain ⟨refs, hold, usable⟩ := hb b
    rw [refs, hold] at hu
    exact usable hu (h.used b hu)

/-- A claim keeps the use law: what is added to a bank's count and subtracted from it is what the channel gains
and loses (R38). -/
theorem State.UseLaw.claim {s u : State} {add drop : Option BankId} (h : s.UseLaw) (c : ChanId)
    (f : Channel → Channel) (hu : s.Counted u add drop) (hs : ∀ b, add = some b → (s.bank b).state = .sealed)
    (hc : ∀ b, (f (s.chan c)).uses b + (if drop = some b then 1 else 0) =
      (s.chan c).uses b + if add = some b then 1 else 0) : (u.modChan c f).UseLaw := by
  have counted (b : BankId) : ((u.modChan c f).bank b) = { s.bank b with
      refs := (s.bank b).refs + (if add = some b then 1 else 0) - if drop = some b then 1 else 0 } := hu.bank b
  refine ⟨fun b => ?_, fun b => ?_, fun b hb => ?_⟩
  · rw [counted]
    exact (h.held b).trans (hu.notes b).symm
  · have moved := sum_map_finRange_off (f := fun j => (s.chan j).uses b)
      (g := fun j => ((u.modChan c f).chan j).uses b) c fun j hj => by
        rw [State.modChan_chan_ne _ _ _ _ hj, hu.chan]
    have refs := h.refs b
    have balance := hc b
    rw [counted, State.references_eq]
    rw [State.references_eq] at refs
    simp only [State.modChan_chan_same, hu.chan] at moved
    show (s.bank b).refs + _ - _ = _
    rw [refs, Nat.sub_eq_of_eq_add]
    linarith
  · rw [counted] at hb ⊢
    by_cases ha : add = some b
    · exact .inl (hs b ha)
    · refine h.used b (hb.imp_left fun hr => ?_)
      simp only [if_neg ha] at hr
      omega

/-- The dispatch start keeps the use law: the banks noted are the active banks of channels (R39, R66). -/
theorem State.UseLaw.startDispatch {s : State} (h : s.UseLaw) (l : LaneId) (x : FifoEntry)
    (hd : s.engine.dispatch = none) : (s.startDispatch l x).UseLaw := by
  have bank (b : BankId) : (s.startDispatch l x).bank b = { s.bank b with
      hold := if ∃ e ∈ s.snapshot l x.slot, e.bank = some b then true else (s.bank b).hold } :=
    (s.modLane l Lane.popHead).setHolds_bank _ true b
  have released (b : BankId) : (s.bank b).hold = false := by
    rw [← Bool.not_eq_true, h.held b]
    rintro ⟨d, hd', -⟩
    exact nomatch hd.symm.trans hd'
  have notes (b : BankId) : (s.startDispatch l x).notes b ↔ ∃ e ∈ s.snapshot l x.slot, e.bank = some b :=
    ⟨fun ⟨_, hd', he⟩ => by cases hd'; exact he, fun he => ⟨_, rfl, he⟩⟩
  have referenced (b : BankId) (hb : ∃ e ∈ s.snapshot l x.slot, e.bank = some b) : (s.bank b).refs ≠ 0 := by
    obtain ⟨e, he, hb⟩ := hb
    obtain ⟨c, -, rfl⟩ := List.mem_map.1 he
    simp only [State.snapEntry, Option.ite_none_right_eq_some] at hb
    rw [h.refs b]
    exact (State.references_pos hb.2).ne'
  refine ⟨fun b => ?_, fun b => ?_, fun b hb => ?_⟩
  · rw [bank, released]
    exact (by simp : _ ↔ _).trans (notes b).symm
  · rw [bank, State.references_congr (s := s) fun c => by simp [Channel.SameNames]]
    exact h.refs b
  · rw [bank, released] at hb
    rw [bank]
    refine h.used b (.inl (hb.elim id fun hh => referenced b ?_))
    simpa using hh

/-- The end of a dispatch keeps the use law: it clears the holds of the banks it noted (R39). -/
theorem State.UseLaw.finish {s : State} (h : s.UseLaw) {d : Dispatch} (hd : s.engine.dispatch = some d) :
    ((s.setHolds d.snapshot false).setDispatch none).UseLaw := by
  have bank (b : BankId) : ((s.setHolds d.snapshot false).setDispatch none).bank b =
      { s.bank b with hold := false } := by
    rw [State.setDispatch_bank, State.setHolds_bank]
    split
    · rfl
    · next hb =>
      have released : (s.bank b).hold = false := by
        rw [← Bool.not_eq_true, h.held b, hd]
        rintro ⟨_, h', he⟩
        cases h'
        exact hb he
      rw [released]
  refine ⟨fun b => ?_, fun b => ?_, fun b hb => ?_⟩
  · rw [bank]; simp
  · rw [bank, State.references_congr (s := s) fun c => by simp [Channel.SameNames]]
    exact h.refs b
  · rw [bank] at hb ⊢
    exact h.used b (.inl (hb.resolve_right nofun))

theorem State.resetBlocks_useLaw (s : State) : s.resetBlocks.UseLaw where
  held b := by simp [Bank.free]
  refs b := by simp [State.references, Bank.free, Channel.reset]
  used b hb := by simp [Bank.free] at hb

theorem State.StoreChange.useLaw {lawful : Prop} (hlaw : lawful) {s t : State} (h : s.StoreChange lawful t)
    (hl : s.UseLaw) : t.UseLaw := by
  cases h with
  | same h =>
    exact hl.of_same (State.references_congr h.names) h.notes fun b => by
      rw [h.bank]; exact ⟨rfl, rfl, fun _ => id⟩
  | write a w => exact hl.of_same (fun _ => rfl) (fun _ => Iff.rfl) fun b => ⟨rfl, rfl, fun _ => id⟩
  | load b n =>
    refine hl.of_same (fun _ => rfl) (fun _ => Iff.rfl) fun x => ?_
    rw [State.modBank_bank]
    split
    · next e => rw [e]; exact ⟨rfl, rfl, fun _ => id⟩
    · exact ⟨rfl, rfl, fun _ => id⟩
  | seals b =>
    refine hl.of_same (fun _ => rfl) (fun _ => Iff.rfl) fun x => ?_
    rw [State.modBank_bank]
    split
    · next e => rw [e]; exact ⟨rfl, rfl, fun _ _ => .inl rfl⟩
    · exact ⟨rfl, rfl, fun _ => id⟩
  | damage b =>
    refine hl.of_same (fun _ => rfl) (fun _ => Iff.rfl) fun x => ?_
    rw [State.damageBank_bank]
    split
    · exact ⟨rfl, rfl, fun _ _ => .inr rfl⟩
    · exact ⟨rfl, rfl, fun _ => id⟩
  | opens b n hf =>
    refine hl.of_same (fun _ => rfl) (fun _ => Iff.rfl) fun x => ?_
    rw [State.openBank_bank]
    split
    · next e => rw [e]; exact ⟨rfl, rfl, fun _ hu => by simp [BankState.usable, hf] at hu⟩
    · exact ⟨rfl, rfl, fun _ => id⟩
  | frees b _ hr hh =>
    refine hl.of_same (fun _ => rfl) (fun _ => Iff.rfl) fun x => ?_
    rw [State.freeBank_bank]
    split
    · next e => rw [e]; exact ⟨hr.symm, hh.symm, fun hu => by simp [hr, hh] at hu⟩
    · exact ⟨rfl, rfl, fun _ => id⟩
  | claim c f hu hs hc => exact hl.claim c f hu hs (hc hlaw)
  | start l x hd => exact hl.startDispatch l x hd
  | finish d hd => exact hl.finish hd
  | reset => exact s.resetBlocks_useLaw

end Sys2Proof.Machine
end

section
/-! PROOFS. Each operation of the delivery unit, the channel controller, the sum engine, the transmit arbiter and the
link controller is a sequence of changes of the bank store; most of them leave it as it is. -/

namespace Sys2Proof.Machine

/-! ## The delivery unit and the watch unit leave the bank store alone -/

theorem State.loseOutput_sameStore (s : State) (c : ChanId) : s.SameStore (s.loseOutput c).1 := by
  unfold State.loseOutput
  dsimp only
  exact .after (State.modChan_sameStore _ c _) (State.modDeliv_sameStore _ c _)

theorem State.append_sameStore (s : State) (c : ChanId) (i : OutIndex) (v : Output) :
    s.SameStore (s.append c i v).1 := by
  unfold State.append
  dsimp only
  split
  · dsimp only
    exact .after (State.modChan_sameStore _ c _) (State.modDeliv_sameStore _ c _)
  · exact s.loseOutput_sameStore c

theorem State.drainReport_sameStore (s : State) (c : ChanId) : s.SameStore (s.drainReport c).1 := by
  unfold State.drainReport
  split
  · dsimp only
    exact s.modChan_sameStore c _
  · dsimp only
    exact s.modChan_sameStore c _
  · exact .refl s

theorem State.checkDrain_sameStore (s : State) (c : ChanId) : s.SameStore (s.checkDrain c).1 := by
  unfold State.checkDrain
  split
  · exact .after (State.drainReport_sameStore _ c) (s.modDeliv_sameStore c _)
  · exact .refl s

theorem State.closeFilling_sameStore (s : State) (c : ChanId) : s.SameStore (s.closeFilling c).1 where

theorem State.closeBatch_sameStore (s : State) (c : ChanId) : s.SameStore (s.closeBatch c).1 := by
  unfold State.closeBatch
  split
  · exact .refl s
  · have watched : (s.closeFilling c).1.SameStore
        ((s.closeFilling c).1.modDeliv c fun d => { d with drainWatch := true }) := {}
    exact ((s.closeFilling_sameStore c).trans watched).trans (State.checkDrain_sameStore _ c)

theorem State.closeIfStopping_sameStore (s : State) (c : ChanId) : s.SameStore (s.closeIfStopping c).1 := by
  unfold State.closeIfStopping
  split
  · exact s.closeBatch_sameStore c
  · exact .refl s

theorem State.closeAtStop_sameStore (s : State) (c : ChanId) : s.SameStore (s.closeAtStop c).1 := by
  unfold State.closeAtStop
  split
  · exact .refl s
  · exact s.closeBatch_sameStore c

theorem State.resend_sameStore (s : State) (l : List (ChanId × BatchId)) : s.SameStore { s with resend := l } :=
  ⟨rfl, rfl, rfl, fun _ => ⟨rfl, rfl⟩, fun _ => Iff.rfl⟩

theorem State.acknowledge_sameStore (s : State) (c : ChanId) (q : Byte) : s.SameStore (s.acknowledge c q).1 := by
  unfold State.acknowledge
  split
  · exact .refl s
  · exact .after (State.checkDrain_sameStore _ c) (.after (State.resend_sameStore _ _) (s.modDeliv_sameStore c _))

theorem State.dropBatch_sameStore (s : State) (c : ChanId) (b : BatchId) : s.SameStore (s.dropBatch c b).1 := by
  unfold State.dropBatch Raising.andThen
  dsimp only
  exact .after (State.checkDrain_sameStore _ c)
    (.after (State.modChan_sameStore _ c _) (State.modDeliv_sameStore _ c _))

theorem State.batchSent_sameStore (s : State) (c : ChanId) (b : BatchId) : s.SameStore (s.batchSent c b).1 := by
  unfold State.batchSent
  dsimp only
  split
  · split
    · exact {}
    · exact .after (State.checkDrain_sameStore _ c) (s.modDeliv_sameStore c _)
    · exact .refl s
    · exact .refl s
  · exact .refl s

section
variable {lawful : Prop}

/-! ## Claims on a channel (R18, R19, R21, R22) -/

/-- A claim that subtracts one from the bank named, if one is, for a channel that names it once less. -/
theorem State.dropRef?_storeChanges (s : State) (c : ChanId) (o : Option BankId) (f : Channel → Channel)
    (h : ∀ b, (f (s.chan c)).uses b + (if o = some b then 1 else 0) = (s.chan c).uses b) :
    s.StoreChanges lawful ((s.dropRef? o).modChan c f) :=
  (State.StoreChange.claim c f (s.dropRef?_counted o) nofun fun _ => h).changes

theorem State.swapPoint_storeChanges (s : State) (c : ChanId) : s.StoreChanges lawful (s.swapPoint c) := by
  unfold State.swapPoint
  split
  · exact .refl s
  · next b h =>
    refine s.dropRef?_storeChanges c _ _ fun x => ?_
    simp only [Channel.uses, h, reduceCtorEq, if_false]
    omega

/-- The staged bank released, with any change of the record that names no other bank. -/
theorem State.releaseStaged_storeChanges (s : State) (c : ChanId) (f : Channel → Channel)
    (h : ∀ ch, Channel.SameNames ch (f ch)) : s.StoreChanges lawful ((s.releaseStaged c).modChan c f) := by
  rw [State.releaseStaged_modChan]
  refine s.dropRef?_storeChanges c _ _ fun b => ?_
  obtain ⟨active, staged⟩ := h { s.chan c with staged := none }
  simp only [Channel.uses, active, staged, reduceCtorEq, if_false]
  omega

theorem State.ignoreRequests_sameStore (s : State) (c : ChanId) : s.SameStore (s.ignoreRequests c) where

theorem State.stopRequest_storeChanges (s : State) (c : ChanId) : s.StoreChanges lawful (s.stopRequest c) := by
  unfold State.stopRequest
  split
  · exact .after (State.ignoreRequests_sameStore _ c).changes
      (s.releaseStaged_storeChanges c _ fun _ => ⟨rfl, rfl⟩)
  all_goals exact .refl s

theorem State.endRun_storeChanges (s : State) (c : ChanId) (st : ChanState) (ds : DoneStatus) :
    s.StoreChanges lawful (s.endRun c st ds) := by
  have discarded : s.SameStore (s.discard c) := {}
  exact .after (State.releaseStaged_storeChanges _ c _ fun _ => ⟨rfl, rfl⟩) discarded.changes

theorem State.faultClaim_storeChanges (s : State) (c : ChanId) (cause : FaultCause) :
    s.StoreChanges lawful (s.faultClaim c cause).1 := by
  unfold State.faultClaim
  split
  · exact s.endRun_storeChanges c _ _
  · exact .refl s

theorem State.swapAndStop_storeChanges (s : State) (c : ChanId) (before after : Bool) :
    s.StoreChanges lawful (s.swapAndStop c before after) := by
  have stop (t : State) (b : Bool) : t.StoreChanges lawful (if b then t.stopRequest c else t) := by
    split
    · exact t.stopRequest_storeChanges c
    · exact .refl t
  exact ((stop s before).trans (State.swapPoint_storeChanges _ c)).trans (stop _ after)

theorem State.takeStopRequest_storeChanges (s : State) : s.StoreChanges lawful s.takeStopRequest.1 := by
  have taken (rest : List ChanId) : s.SameStore { s with stopRequests := rest } :=
    ⟨rfl, rfl, rfl, fun _ => ⟨rfl, rfl⟩, fun _ => Iff.rfl⟩
  unfold State.takeStopRequest
  split
  · exact .refl s
  · next c rest _ =>
    dsimp only
    split
    · exact .after (State.closeAtStop_sameStore _ c).changes
        (.after (State.stopRequest_storeChanges _ c) (taken rest).changes)
    · exact (taken rest).changes

/-! ## The commands of the channel controller -/

theorem State.judge_eq_none {s : State} {b : BankId} (h : s.judge b = none) : (s.bank b).state = .sealed := by
  unfold State.judge at h
  split at h
  · exact nomatch h
  · exact nomatch h
  · exact nomatch h
  · assumption

/-- A bank claimed, and the active bank given up for it (R8, R16, R37). -/
theorem State.rebind_storeChanges (s : State) (c : ChanId) (b : BankId) (f : Channel → Channel)
    (hb : (s.bank b).state = .sealed)
    (hf : (f (s.chan c)).active = some b ∧ (f (s.chan c)).staged = (s.chan c).staged) :
    s.StoreChanges lawful (((s.addRef b).dropRef? (s.chan c).active).modChan c f) := by
  refine (State.StoreChange.claim c f (s.addRef_dropRef?_counted b _)
    (fun x hx => Option.some.inj hx ▸ hb) fun _ x => ?_).changes
  simp only [Channel.uses, hf.1, hf.2]
  omega

theorem State.bind_storeChanges (s : State) (c : ChanId) (b : BankId) (hb : (s.bank b).state = .sealed) :
    s.StoreChanges lawful (s.bind c b) := s.rebind_storeChanges c b _ hb ⟨rfl, rfl⟩

theorem State.swapNow_storeChanges (s : State) (c : ChanId) (b : BankId) (tag : Byte)
    (hb : (s.bank b).state = .sealed) : s.StoreChanges lawful (s.swapNow c b tag) :=
  s.rebind_storeChanges c b _ hb ⟨rfl, rfl⟩

theorem State.stageSwap_storeChanges (s : State) (c : ChanId) (b : BankId) (tag : Byte)
    (hb : (s.bank b).state = .sealed) (hs : lawful → (s.chan c).staged = none) :
    s.StoreChanges lawful (s.stageSwap c b tag) := by
  refine (State.StoreChange.claim c _ (s.addRef_counted b)
    (fun x hx => Option.some.inj hx ▸ hb) fun hl x => ?_).changes
  simp only [Channel.uses, hs hl, reduceCtorEq, if_false]
  omega

theorem State.configure_sameStore (s : State) (c : ChanId) (g : ChanConfig) : s.SameStore (s.configure c g) :=
  .after (State.modChan_sameStore _ c _) (s.modArb_sameStore _)

theorem State.clearChannel_storeChanges (s : State) (c : ChanId) : s.StoreChanges lawful (s.clearChannel c) := by
  have counted (f : Arbiter → Arbiter) :
      s.Counted ((s.dropRef? (s.chan c).active).modArb f) none (s.chan c).active :=
    { bank := (s.dropRef?_counted (s.chan c).active).bank }
  unfold State.clearChannel State.configure
  rw [State.modChan_modChan]
  refine (State.StoreChange.claim c _ (counted _) nofun fun _ b => ?_).changes
  simp only [Channel.uses, reduceCtorEq, if_false]
  omega

theorem State.start_sameStore (s : State) (c : ChanId) : s.SameStore (s.start c) := by
  unfold State.start
  have watched (u : State) (ws : Vector Watch 8) : u.SameStore { u with watches := ws } :=
    ⟨rfl, rfl, rfl, fun _ => ⟨rfl, rfl⟩, fun _ => Iff.rfl⟩
  exact .after (watched _ _) (.after (State.modDeliv_sameStore _ c _) (s.modChan_sameStore c _))

theorem State.stopChannel_sameStore (s : State) (c : ChanId) (tag : Byte) : s.SameStore (s.stopChannel c tag).1 :=
  .after (State.closeAtStop_sameStore _ c)
    (.after (State.ignoreRequests_sameStore _ c) (s.modChan_sameStore c _))

/-- Snapshot entries changed that keep the banks they noted. -/
theorem State.mapSnapshot_sameStore (s : State) {d : Dispatch} (f : SnapEntry → SnapEntry)
    (h : s.engine.dispatch = some d) (hf : ∀ e, (f e).bank = e.bank) :
    s.SameStore (s.setDispatch (some { d with snapshot := d.snapshot.map f })) where
  notes b := by simp [State.notes, h, hf]

theorem State.strike_sameStore (s : State) (c : ChanId) : s.SameStore (s.strike c) := by
  cases h : s.engine.dispatch with
  | none => exact { notes := fun b => by simp [State.notes, State.strike, h] }
  | some d =>
    unfold State.strike
    rw [h]
    exact s.mapSnapshot_sameStore _ h fun e => by split <;> rfl

/-! ## The bank store -/

theorem State.setCoeff_storeChanges (s : State) (b : Bank) (k : Nat) (w : StoredWord) :
    s.StoreChanges lawful (s.setCoeff b k w) := by
  unfold State.setCoeff
  split
  · exact (State.StoreChange.write s _ w).changes
  · exact .refl s

theorem State.storeCoeffs_storeChanges (s : State) (b : Bank) (k : Nat) (xs : List Sample) :
    s.StoreChanges lawful (s.storeCoeffs b k xs) := by
  induction xs generalizing s k with
  | nil => exact .refl s
  | cons x xs ih => exact (s.setCoeff_storeChanges b k _).trans (ih _ _)

theorem State.upsetCoeffs_storeChanges (s : State) (k : Bank) (us : List (Fin 256 × Sample)) :
    s.StoreChanges lawful (s.upsetCoeffs k us) := by
  unfold State.upsetCoeffs
  induction us generalizing s with
  | nil => exact .refl s
  | cons u us ih =>
    refine .after (ih _) ?_
    dsimp only
    split
    · exact s.setCoeff_storeChanges k _ _
    · exact .refl s

/-! ## The sum engine -/

theorem State.upsetHistory_sameStore (s : State) (d : Dispatch) (bad : List (ChanId × Fin 256)) :
    s.SameStore (s.upsetHistory d bad) := by
  unfold State.upsetHistory
  induction bad generalizing s with
  | nil => exact .refl s
  | cons q bad ih =>
    refine State.SameStore.trans ?_ (ih _)
    dsimp only
    split
    · exact {}
    · exact .refl s

theorem State.modRing_sameStore (s : State) (c : ChanId) (f : List StoredWord → List StoredWord) :
    s.SameStore (s.modRing c f) where

theorem State.takeSample_sameStore (s : State) (c : ChanId) (x : FifoEntry) : s.SameStore (s.takeSample c x) :=
  .after (State.modChan_sameStore _ c _) (s.modRing_sameStore c _)

theorem State.damageFound_storeChanges (s : State) (d : Dispatch) : s.StoreChanges lawful (s.damageFound d) := by
  unfold State.damageFound
  generalize d.snapshot = es
  suffices h : ∀ t : State, t.StoreChanges lawful (es.foldl (fun t e =>
      match s.workEntry d e with
      | .failed (.bank b) => t.damageBank b
      | .failed .history => t
      | .nothing => t
      | .computed _ => t) t) from h s
  intro t
  induction es generalizing t with
  | nil => exact .refl t
  | cons e es ih =>
    refine .after (ih _) ?_
    dsimp only
    split
    · exact (State.StoreChange.damage t _).changes
    all_goals exact .refl t

theorem State.handOn_storeChanges (s : State) (c : ChanId) (r : Result) (taps : Nat) (choice : CompletionChoice) :
    s.StoreChanges lawful (s.handOn c r taps choice).1 := by
  have flagged : s.SameStore (s.setFlags c r taps) := s.modChan_sameStore c _
  have appended := flagged.trans (State.append_sameStore _ c (s.chan c).outIndex r.value)
  have watched (t : State) (i : OutIndex) : t.SameStore (t.evaluate c i r.value).state := {}
  have evaluated := appended.trans (watched _ (s.chan c).outIndex)
  have counted := evaluated.trans
    (State.modChan_sameStore _ c fun ch => { ch with outIndex := ch.outIndex + 1 })
  have left (t : State) (ws : List WatchId) : t.SameStore (t.leaveRequests c ws) := {}
  exact (counted.changes.trans (State.swapAndStop_storeChanges _ c _ _)).trans (left _ _).changes

theorem State.settlePassing_storeChanges (s : State) (choice : CompletionChoice) (d : Dispatch) (e : SnapEntry) :
    s.StoreChanges lawful (s.settlePassing choice d e).1 := by
  have sampled : s.StoreChanges lawful _ := (s.takeSample_sameStore e.channel d.sample).changes
  unfold State.settlePassing
  refine .after (State.closeIfStopping_sameStore _ _).changes ?_
  split
  · split
    · exact sampled.trans (State.handOn_storeChanges _ _ _ _ _)
    · exact sampled
  · exact sampled

theorem State.completeEntry_storeChanges (s : State) (choice : CompletionChoice) (d : Dispatch) (e : SnapEntry) :
    s.StoreChanges lawful (s.completeEntry choice d e).1 := by
  unfold State.completeEntry State.settleEntry
  split
  · split
    · exact s.faultClaim_storeChanges _ _
    · exact s.settlePassing_storeChanges choice d e
  · exact (s.closeIfStopping_sameStore _).changes

theorem State.settleAll_storeChanges (choice : CompletionChoice) (d : Dispatch) (es : List SnapEntry) (s : State) :
    s.StoreChanges lawful (State.settleAll choice d es s).1 := by
  induction es generalizing s with
  | nil => exact .refl s
  | cons e es ih => exact (s.completeEntry_storeChanges choice d e).trans (ih _)

end

/-- The settling of the entries leaves the dispatch record in place. -/
theorem State.settleAll_dispatch (choice : CompletionChoice) (d : Dispatch) (es : List SnapEntry) (s : State) :
    (State.settleAll choice d es s).1.engine.dispatch = s.engine.dispatch := by
  have passing (t : State) (e : SnapEntry) : (t.settlePassing choice d e).1.engine.dispatch = t.engine.dispatch := by
    unfold State.settlePassing
    simp only [Raising.andThen, State.closeIfStopping_engine]
    split
    · split
      · rw [State.handOn_engine]; rfl
      · rfl
    · rfl
  have entry (t : State) (e : SnapEntry) : (t.completeEntry choice d e).1.engine.dispatch = t.engine.dispatch := by
    unfold State.completeEntry State.settleEntry
    split
    · split
      · rw [State.faultClaim_engine]
      · exact passing t e
    · rw [State.closeIfStopping_engine]
  induction es generalizing s with
  | nil => rfl
  | cons e es ih => exact (ih _).trans (entry s e)

/-- Words found bad leave the dispatch record in place. -/
theorem State.upsetHistory_dispatch (s : State) (d : Dispatch) (bad : List (ChanId × Fin 256)) :
    (s.upsetHistory d bad).engine.dispatch = s.engine.dispatch := by
  unfold State.upsetHistory
  induction bad generalizing s with
  | nil => rfl
  | cons q bad ih =>
    rw [List.foldl_cons, ih]
    split <;> rfl

section
variable {lawful : Prop}

theorem State.complete_storeChanges (s : State) (d : Dispatch) (choice : CompletionChoice)
    (h : s.engine.dispatch = some d) : s.StoreChanges lawful (s.complete d choice) := by
  unfold State.complete
  refine .after (State.raiseAll_sameStore _ _).changes (.after (State.StoreChange.finish d ?_).changes ?_)
  · rw [State.settleAll_dispatch, State.damageFound_engine, State.upsetHistory_dispatch, h]
  · exact .after (State.settleAll_storeChanges _ _ _ _)
      (.after (State.damageFound_storeChanges _ d) (s.upsetHistory_sameStore d _).changes)

/-- The fault cause set in the entries of a channel leaves the banks that they noted. -/
theorem State.markDamage_storeChanges (s : State) (d : Dispatch) (c : ChanId) (b : BankId) (k : Nat)
    (h : s.engine.dispatch = some d) : s.StoreChanges lawful (s.markDamage d c b k) := by
  have spoiled : s.StoreChanges lawful (s.setCoeff (s.bank b) k (spoil (s.coeff (s.bank b) k))) :=
    s.setCoeff_storeChanges _ k _
  have damaged := spoiled.trans (State.StoreChange.damage _ b).changes
  exact damaged.trans (State.mapSnapshot_sameStore _ _ (by simp [h]) fun e => by split <;> rfl).changes

/-! ## The transmit arbiter and the resets -/

theorem State.transmit_sameStore (s : State) (src : Source) (f : Frame) : s.SameStore (s.transmit src f) where

theorem State.startResend_sameStore (s : State) (c : ChanId) (b : BatchId) : s.SameStore (s.startResend c b) := by
  unfold State.startResend
  exact .after (State.transmit_sameStore _ _ _) (.after (State.modChan_sameStore _ c _)
    (.after (State.modDeliv_sameStore _ c _) (State.resend_sameStore _ _)))

theorem State.startFrom_sameStore (s : State) (src : Source) : s.SameStore (s.startFrom src) := by
  unfold State.startFrom
  split
  · exact {}
  · split
    · exact {}
    · exact .refl s
  · exact {}
  · exact {}
  · exact s.startResend_sameStore _ _
  · exact {}

theorem State.performDeviceReset_storeChanges (s : State) : s.StoreChanges lawful s.performDeviceReset :=
  (State.StoreChange.reset s).changes.trans (State.modLink_sameStore _ _).changes

theorem State.performPowerReset_storeChanges (s : State) (cause : ResetCause) (hrxSpace : Bool) :
    s.StoreChanges lawful (s.performPowerReset cause hrxSpace) :=
  (State.StoreChange.reset s).changes.trans (State.modLink_sameStore _ _).changes

theorem State.replyEffect_storeChanges (s : State) (r : Reply) : s.StoreChanges lawful (s.replyEffect r) := by
  unfold State.replyEffect
  split
  · split
    · exact (s.modLink_sameStore _).changes
    · exact .refl s
  · split
    · exact s.performDeviceReset_storeChanges
    · exact .refl s

theorem State.replySent_storeChanges (s : State) : s.StoreChanges lawful s.replySent := by
  unfold State.replySent
  split
  · exact .after (State.replyEffect_storeChanges _ _) (s.modLink_sameStore _).changes
  · exact .refl s

theorem State.sent_storeChanges (s : State) (src : Source) : s.StoreChanges lawful (s.sent src).1 := by
  unfold State.sent
  split
  · exact State.SameStore.changes {}
  · exact s.replySent_storeChanges
  · dsimp only
    exact (s.modChan_sameStore _ _).changes
  · exact .refl s
  · exact (s.batchSent_sameStore _ _).changes
  · exact (s.batchSent_sameStore _ _).changes

theorem State.freeTransmitter_sameStore (s : State) : s.SameStore s.freeTransmitter :=
  ⟨rfl, rfl, rfl, fun _ => ⟨rfl, rfl⟩, fun _ => Iff.rfl⟩

theorem State.abandonTransmission_sameStore (s : State) : s.SameStore s.abandonTransmission := by
  unfold State.abandonTransmission
  split
  · exact .refl s
  · refine s.freeTransmitter_sameStore.trans ?_
    unfold State.abandon
    split
    · exact .refl _
    · exact .refl _
    · exact .refl _
    all_goals exact {}

theorem State.performLinkReset_sameStore (s : State) : s.SameStore s.performLinkReset :=
  s.abandonTransmission_sameStore.trans (State.modLink_sameStore _ _)

/-! ## The link controller -/

theorem State.checkFrame_sameStore (s : State) (len : Byte) (body : List Byte) :
    s.SameStore (s.checkFrame len body).1 := by
  unfold State.checkFrame State.route
  dsimp only
  split
  · split
    · split
      · exact s.acknowledge_sameStore _ _
      · exact {}
    · exact {}
  · exact {}

theorem State.takeByte_sameStore (s : State) (b : Byte) : s.SameStore (s.takeByte b).1 := by
  unfold State.takeByte
  split
  · split
    · exact {}
    · exact .refl s
  · split
    · exact {}
    · exact {}
  · dsimp only
    split
    · exact {}
    · exact (s.modLink_sameStore _).trans (State.checkFrame_sameStore _ _ _)

end

end Sys2Proof.Machine
end

section
/-! PROOFS. What the owner of every command does to the bank store, and what every command does; and from it that a
step keeps the canonical form of coefficient memory (O52), the page law (O54) and the use law (O56). -/

namespace Sys2Proof.Machine

section
variable {lawful : Prop}

/-! ## The owners of the commands -/

@[simp] theorem Answer.done_state (st : Status) (s : State) : (Answer.done st s).state = s := rfl

theorem pingOwner_sameStore (p : List Byte) (s : State) : s.SameStore (pingOwner p s).state := .refl s

theorem deviceResetOwner_sameStore (s : State) : s.SameStore (deviceResetOwner s).state :=
  s.modLink_sameStore fun k => { k with resetPending := true }

theorem linkSetOwner_sameStore (p : List Byte) (s : State) : s.SameStore (linkSetOwner p s).state := by
  unfold linkSetOwner
  split <;> exact .refl s

theorem deviceQueryOwner_sameStore (p : List Byte) (s : State) : s.SameStore (deviceQueryOwner p s).state := by
  unfold deviceQueryOwner
  split
  · exact {}
  · exact .refl s

theorem bankOpenOwner_storeChanges (p : List Byte) (s : State) :
    s.StoreChanges lawful (bankOpenOwner p s).state := by
  unfold bankOpenOwner
  split
  · exact .refl s
  · next b _ =>
    split
    · exact .refl s
    · next hf =>
      dsimp only
      split
      · exact .refl s
      · next hn =>
        split
        · exact .refl s
        · next hp => exact (State.StoreChange.opens b _ (not_not.1 hf) (not_not.1 hn) (not_lt.1 hp)).changes

theorem bankDataOwner_storeChanges (p : List Byte) (s : State) :
    s.StoreChanges lawful (bankDataOwner p s).state := by
  unfold bankDataOwner
  split
  · exact .refl s
  · next b _ =>
    dsimp only
    split
    · exact .refl s
    · next ho =>
      split
      · exact .refl s
      · next hl =>
        split
        · exact .refl s
        · next ht =>
          have stored : s.StoreChanges lawful (s.storeCoeffs (s.bank b) (halfAt p 2).toNat
              (halvesAt p 4 ((p.length - 4) / 2))) := s.storeCoeffs_storeChanges _ _ _
          refine stored.trans (State.StoreChange.changes (.load b (fun k => k.loaded + (p.length - 4) / 2) ?_ ?_))
          · rw [State.storeCoeffs_bank]; exact not_not.1 ho
          · rw [State.storeCoeffs_bank]; omega

theorem bankSealOwner_storeChanges (p : List Byte) (upsets : List (Fin 256 × Sample)) (s : State) :
    s.StoreChanges lawful (bankSealOwner p upsets s).state := by
  unfold bankSealOwner
  split
  · exact .refl s
  · next b _ =>
    dsimp only
    split
    · exact .refl s
    · next ho =>
      have opened : ((s.upsetCoeffs (s.bank b) upsets).bank b).state = .opened := by
        rw [State.upsetCoeffs_bank]; exact not_not.1 ho
      split
      · exact .refl s
      · have upset : s.StoreChanges lawful (s.upsetCoeffs (s.bank b) upsets) := s.upsetCoeffs_storeChanges _ _
        refine upset.trans ?_
        split
        · exact (State.StoreChange.seals b opened).changes
        · exact (State.StoreChange.load b (fun _ => 0) opened (Nat.zero_le _)).changes

theorem bankFreeOwner_storeChanges (p : List Byte) (s : State) :
    s.StoreChanges lawful (bankFreeOwner p s).state := by
  unfold bankFreeOwner
  split
  · exact .refl s
  · next b _ =>
    split
    · exact .refl s
    · next hf =>
      split
      · exact .refl s
      · next hr =>
        split
        · exact .refl s
        · next hh =>
          exact (State.StoreChange.frees b hf (Nat.eq_zero_of_not_pos hr) (Bool.not_eq_true _ ▸ hh)).changes

theorem bankQueryOwner_sameStore (p : List Byte) (s : State) : s.SameStore (bankQueryOwner p s).state := by
  unfold bankQueryOwner
  split <;> exact .refl s

theorem laneSetOwner_sameStore (p : List Byte) (s : State) : s.SameStore (laneSetOwner p s).state := by
  unfold laneSetOwner
  split
  · exact .refl s
  · split
    · exact .refl s
    · split
      · exact .refl s
      · dsimp only
        split
        · exact {}
        · exact .refl s

theorem laneQueryOwner_sameStore (p : List Byte) (s : State) : s.SameStore (laneQueryOwner p s).state := by
  unfold laneQueryOwner
  split
  · exact .refl s
  · dsimp only
    split
    · exact {}
    · exact .refl s

theorem chanConfigOwner_sameStore (p : List Byte) (s : State) : s.SameStore (chanConfigOwner p s).state := by
  have settled (c : ChanId) : s.SameStore (match configOperands p with
      | none => Answer.refuse .chanConfig .badArg s
      | some g => .done .ok (s.configure c g)).state := by
    split
    · exact .refl s
    · exact s.configure_sameStore c _
  unfold chanConfigOwner
  split
  · exact .refl s
  · next c _ =>
    split
    · exact settled c
    · exact settled c
    all_goals exact .refl s

theorem chanBindOwner_storeChanges (p : List Byte) (s : State) :
    s.StoreChanges lawful (chanBindOwner p s).state := by
  have settled (c : ChanId) : s.StoreChanges lawful (match indexOf 32 (byteAt p 1) with
      | none => Answer.refuse .chanBind .badArg s
      | some b =>
        match s.judge b with
        | some refusal => .refuse .chanBind refusal s
        | none => .done .ok (s.bind c b)).state := by
    split
    · exact .refl s
    · split
      · exact .refl s
      · next hb => exact s.bind_storeChanges c _ (State.judge_eq_none hb)
  unfold chanBindOwner
  split
  · exact .refl s
  · next c _ =>
    split
    · exact settled c
    · exact settled c
    all_goals exact .refl s

theorem chanStartOwner_sameStore (p : List Byte) (s : State) : s.SameStore (chanStartOwner p s).state := by
  unfold chanStartOwner
  split
  · exact .refl s
  · split
    · split
      · exact s.start_sameStore _
      · exact .refl s
    all_goals exact .refl s

theorem chanStopOwner_sameStore (tag : Byte) (p : List Byte) (s : State) :
    s.SameStore (chanStopOwner tag p s).state := by
  unfold chanStopOwner
  split
  · exact .refl s
  · split
    · split
      · exact .refl s
      · exact s.stopChannel_sameStore _ tag
    all_goals exact .refl s

theorem chanAbortOwner_storeChanges (p : List Byte) (s : State) :
    s.StoreChanges lawful (chanAbortOwner p s).state := by
  unfold chanAbortOwner
  split
  · exact .refl s
  · next c _ =>
    split
    · exact (s.endRun_storeChanges c _ _).trans (State.strike_sameStore _ c).changes
    · exact .refl s

theorem chanClearOwner_storeChanges (p : List Byte) (s : State) :
    s.StoreChanges lawful (chanClearOwner p s).state := by
  unfold chanClearOwner
  split
  · exact .refl s
  · next c _ =>
    split
    · exact s.clearChannel_storeChanges c
    · exact s.clearChannel_storeChanges c
    · exact s.clearChannel_storeChanges c
    all_goals exact .refl s

/-- A channel with no operation in its slot has no bank staged: what CHAN_SWAP rests on (R17). -/
def State.UnstagedIdle (s : State) : Prop := ∀ c, (s.chan c).opSlot = .none → (s.chan c).staged = none

theorem State.ChannelLaw.unstagedIdle {s : State} (h : s.ChannelLaw) : s.UnstagedIdle := fun c ho => by
  rw [← Option.not_isSome_iff_eq_none, (h.records c).staged, ho]
  exact fun ⟨_, h⟩ => nomatch h

theorem chanSwapOwner_storeChanges (tag : Byte) (p : List Byte) (s : State) (hl : lawful → s.UnstagedIdle) :
    s.StoreChanges lawful (chanSwapOwner tag p s).state := by
  have taken (c : ChanId) : s.StoreChanges lawful (if (s.chan c).opSlot ≠ .none then Answer.refuse .chanSwap .busy s
        else
          match indexOf 32 (byteAt p 1) with
          | none => .refuse .chanSwap .badArg s
          | some b =>
            match s.judge b with
            | some refusal => .refuse .chanSwap refusal s
            | none =>
              .done .accepted
                (if (s.chan c).state = .ready then s.swapNow c b tag else s.stageSwap c b tag)).state := by
    split
    · exact .refl s
    · next ho =>
      split
      · exact .refl s
      · split
        · exact .refl s
        · next hb =>
          rw [Answer.done_state]
          split
          · exact s.swapNow_storeChanges c _ tag (State.judge_eq_none hb)
          · exact s.stageSwap_storeChanges c _ tag (State.judge_eq_none hb) fun h => hl h c (not_not.1 ho)
  unfold chanSwapOwner
  split
  · exact .refl s
  · next c _ =>
    split
    · exact taken c
    · exact taken c
    all_goals exact .refl s

theorem chanQueryOwner_sameStore (p : List Byte) (s : State) : s.SameStore (chanQueryOwner p s).state := by
  unfold chanQueryOwner
  split
  · exact .refl s
  · dsimp only
    split
    · exact s.modChan_sameStore _ _
    · exact .refl s

theorem chanRotateOwner_sameStore (p : List Byte) (s : State) : s.SameStore (chanRotateOwner p s).state := by
  unfold chanRotateOwner
  split
  · split
    · exact {}
    · exact .refl s
  · exact .refl s

theorem watchSetOwner_sameStore (p : List Byte) (s : State) : s.SameStore (watchSetOwner p s).state := by
  unfold watchSetOwner
  split
  · exact .refl s
  · exact {}

theorem watchOffOwner_sameStore (p : List Byte) (s : State) : s.SameStore (watchOffOwner p s).state := by
  unfold watchOffOwner
  split
  · exact .refl s
  · exact {}

theorem watchQueryOwner_sameStore (p : List Byte) (s : State) : s.SameStore (watchQueryOwner p s).state := by
  unfold watchQueryOwner
  split <;> exact .refl s

/-! ## Every command -/

theorem State.take_storeChanges (s : State) (c : Command) (tag : Byte) (p : List Byte) {owner : State → Answer}
    (ho : s.popInbound.StoreChanges lawful (owner s.popInbound).state) :
    s.StoreChanges lawful (s.take c tag p owner) := by
  unfold State.take
  split
  · have popped : s.StoreChanges lawful s.popInbound := (s.modLink_sameStore _).changes
    refine .after (State.modLink_sameStore _ _).changes (.after (State.raiseAll_sameStore _ _).changes ?_)
    refine popped.trans ?_
    unfold State.judgeCommand
    split
    · exact .refl _
    · split
      · exact .refl _
      · exact ho
  · exact .refl s

theorem exec_storeChanges (i : Instr) (s : State) (hl : lawful → s.UnstagedIdle) :
    ∃ t, exec i s = .next t ∧ s.StoreChanges lawful t := by
  cases i with
  | powerReset hrx => exact ⟨_, rfl, s.performPowerReset_storeChanges _ _⟩
  | pinReset hrx => exact ⟨_, rfl, s.performPowerReset_storeChanges _ _⟩
  | linkReset =>
    refine ⟨_, rfl, ?_⟩
    split
    · split
      · exact s.performLinkReset_sameStore.changes.trans (State.performDeviceReset_storeChanges _)
      · exact s.performLinkReset_sameStore.changes
    · exact .refl s
    · exact .refl s
  | gapTimerExpiry =>
    refine ⟨_, rfl, ?_⟩
    split
    · exact (s.modLink_sameStore _).changes
    · exact .refl s
  | byteArrival b =>
    refine ⟨_, rfl, ?_⟩
    split
    · exact State.SameStore.changes (.after (State.raiseAll_sameStore _ _)
        (.after (State.takeByte_sameStore _ _) (s.modLink_sameStore _)))
    · exact .refl s
  | byteFramingError =>
    refine ⟨_, rfl, ?_⟩
    split
    · exact (s.modLink_sameStore _).changes
    · exact .refl s
  | wordArrival l w m => exact ⟨_, rfl, State.SameStore.changes {}⟩
  | dispatchStart =>
    refine ⟨_, rfl, ?_⟩
    split
    · next hd _ =>
      split
      · exact (State.StoreChange.start _ _ hd).changes
      · exact .refl s
    · exact .refl s
  | damageMarking c k =>
    refine ⟨_, rfl, ?_⟩
    split
    · exact .refl s
    · next d e he =>
      split
      · exact .refl s
      · split
        · refine s.markDamage_storeChanges d c _ _ ?_
          simp only [State.entryOf, Option.bind_eq_some_iff, Option.map_eq_some_iff, Prod.mk.injEq] at he
          obtain ⟨d', hd, _, _, rfl, _⟩ := he
          exact hd
        · exact .refl s
  | dispatchCompletion choice =>
    refine ⟨_, rfl, ?_⟩
    split
    · exact .refl s
    · next d hd => exact s.complete_storeChanges d choice hd
  | ackTimerExpiry c b =>
    refine ⟨_, rfl, ?_⟩
    split
    · split
      · exact State.SameStore.changes (.after (State.resend_sameStore _ _) (s.modDeliv_sameStore c _))
      · exact State.SameStore.changes (.after (State.raiseAll_sameStore _ _) (s.dropBatch_sameStore c b))
    · exact .refl s
  | transmissionStart =>
    refine ⟨_, rfl, ?_⟩
    split
    · exact (s.startFrom_sameStore _).changes
    · exact .refl s
  | sendCompletion =>
    refine ⟨_, rfl, ?_⟩
    split
    · exact .refl s
    · exact .after (State.raiseAll_sameStore _ _).changes
        (.after (State.sent_storeChanges _ _) s.freeTransmitter_sameStore.changes)
  | ping tag p => exact ⟨_, rfl, s.take_storeChanges .ping tag p (pingOwner_sameStore p _).changes⟩
  | deviceReset tag p => exact ⟨_, rfl, s.take_storeChanges .deviceReset tag p
      (deviceResetOwner_sameStore _).changes⟩
  | linkSet tag p => exact ⟨_, rfl, s.take_storeChanges .linkSet tag p (linkSetOwner_sameStore p _).changes⟩
  | deviceQuery tag p => exact ⟨_, rfl, s.take_storeChanges .deviceQuery tag p
      (deviceQueryOwner_sameStore p _).changes⟩
  | bankOpen tag p => exact ⟨_, rfl, s.take_storeChanges .bankOpen tag p (bankOpenOwner_storeChanges p _)⟩
  | bankData tag p => exact ⟨_, rfl, s.take_storeChanges .bankData tag p (bankDataOwner_storeChanges p _)⟩
  | bankSeal tag p us => exact ⟨_, rfl, s.take_storeChanges .bankSeal tag p (bankSealOwner_storeChanges p us _)⟩
  | bankFree tag p => exact ⟨_, rfl, s.take_storeChanges .bankFree tag p (bankFreeOwner_storeChanges p _)⟩
  | bankQuery tag p => exact ⟨_, rfl, s.take_storeChanges .bankQuery tag p (bankQueryOwner_sameStore p _).changes⟩
  | laneSet tag p => exact ⟨_, rfl, s.take_storeChanges .laneSet tag p (laneSetOwner_sameStore p _).changes⟩
  | laneQuery tag p => exact ⟨_, rfl, s.take_storeChanges .laneQuery tag p (laneQueryOwner_sameStore p _).changes⟩
  | chanConfig tag p => exact ⟨_, rfl, s.take_storeChanges .chanConfig tag p
      (chanConfigOwner_sameStore p _).changes⟩
  | chanBind tag p => exact ⟨_, rfl, s.take_storeChanges .chanBind tag p (chanBindOwner_storeChanges p _)⟩
  | chanStart tag p => exact ⟨_, rfl, s.take_storeChanges .chanStart tag p (chanStartOwner_sameStore p _).changes⟩
  | chanStop tag p => exact ⟨_, rfl, s.take_storeChanges .chanStop tag p (chanStopOwner_sameStore tag p _).changes⟩
  | chanAbort tag p => exact ⟨_, rfl, s.take_storeChanges .chanAbort tag p (chanAbortOwner_storeChanges p _)⟩
  | chanClear tag p => exact ⟨_, rfl, s.take_storeChanges .chanClear tag p (chanClearOwner_storeChanges p _)⟩
  | chanSwap tag p => exact ⟨_, rfl, s.take_storeChanges .chanSwap tag p (chanSwapOwner_storeChanges tag p _ hl)⟩
  | chanQuery tag p => exact ⟨_, rfl, s.take_storeChanges .chanQuery tag p (chanQueryOwner_sameStore p _).changes⟩
  | chanRotate tag p => exact ⟨_, rfl, s.take_storeChanges .chanRotate tag p
      (chanRotateOwner_sameStore p _).changes⟩
  | watchSet tag p => exact ⟨_, rfl, s.take_storeChanges .watchSet tag p (watchSetOwner_sameStore p _).changes⟩
  | watchOff tag p => exact ⟨_, rfl, s.take_storeChanges .watchOff tag p (watchOffOwner_sameStore p _).changes⟩
  | watchQuery tag p => exact ⟨_, rfl, s.take_storeChanges .watchQuery tag p
      (watchQueryOwner_sameStore p _).changes⟩
  | badType type tag p =>
    refine ⟨_, rfl, ?_⟩
    split
    · exact ((s.modLink_sameStore _).trans (State.modLink_sameStore _ _)).changes
    · exact .refl s
  | hrxChangesToSpace => exact ⟨_, rfl, (s.modLink_sameStore _).changes⟩
  | hrxChangesToMark => exact ⟨_, rfl, (s.modLink_sameStore _).changes⟩

theorem step_storeChanges {s t : State} (hl : lawful → s.UnstagedIdle) (h : step s = .next t) :
    s.StoreChanges lawful t := by
  unfold step at h
  split at h
  · obtain rfl := Host.Outcome.next.inj h
    exact .after (State.raiseAll_sameStore _ _).changes s.takeStopRequest_storeChanges
  · next c rest _ =>
    have front : s.SameStore { s with pending := rest } :=
      ⟨rfl, rfl, rfl, fun _ => ⟨rfl, rfl⟩, fun _ => Iff.rfl⟩
    obtain ⟨u, hu, hc⟩ := exec_storeChanges c { s with pending := rest } hl
    obtain rfl := Host.Outcome.next.inj (hu.symm.trans h)
    exact front.changes.trans hc

end

/-! ## The obligations -/

/-- Settles O52: every change of the bank store keeps the canonical form. -/
theorem stepKeepsMemoryCanonical : Obligations.StepKeepsMemoryCanonical := fun _ _ hm h =>
  (step_storeChanges False.elim h).keeps (fun _ _ hc => hc.memory_wf) hm

/-- Settles O54: every change of the bank store keeps the page law. -/
theorem stepKeepsThePageLaw : Obligations.StepKeepsThePageLaw := fun _ _ hl h =>
  (step_storeChanges False.elim h).keeps (fun _ _ hc => hc.pageLaw) hl

/-- Settles O56: every change of the bank store keeps the use law, where no bank is staged for a channel whose
operation slot is empty. -/
theorem stepKeepsTheUseLaw : Obligations.StepKeepsTheUseLaw := fun s _ hc hl h =>
  (step_storeChanges (lawful := s.UnstagedIdle) id h).keeps
    (fun _ _ hs => hs.useLaw hc.unstagedIdle) hl

end Sys2Proof.Machine
end

section
/-! PROOFS. The commands of the bank store with their whole next state (O39 to O42): what each owner answers, and
where the coefficients of a bank are read and written. -/

namespace Sys2Proof.Machine

/-! ## BANK_OPEN (R32) -/

theorem bankOpenOwner_noBank {p : List Byte} (s : State) (h : 32 ≤ (byteAt p 0).toNat) :
    bankOpenOwner p s = .refuse .bankOpen .badArg s := by
  rw [bankOpenOwner, indexOf_eq_none.2 h]

theorem bankOpenOwner_inUse {p : List Byte} {s : State} {b : BankId} (hb : indexOf 32 (byteAt p 0) = some b)
    (h : (s.bank b).state ≠ .free) : bankOpenOwner p s = .refuse .bankOpen .inUse s := by
  rw [bankOpenOwner, hb]
  exact if_pos h

/-- A FREE bank: the tap count and the pool decide. -/
theorem bankOpenOwner_free {p : List Byte} {s : State} {b : BankId} (hb : indexOf 32 (byteAt p 0) = some b)
    (h : (s.bank b).state = .free) :
    bankOpenOwner p s =
      if ¬ (1 ≤ (halfAt p 2).toNat ∧ (halfAt p 2).toNat ≤ 256) then .refuse .bankOpen .badArg s
      else if s.pool.length < pagesFor (halfAt p 2).toNat then .refuse .bankOpen .noSpace s
      else ⟨s.openBank b (halfAt p 2).toNat, .ok,
        natByte (s.pool.drop (pagesFor (halfAt p 2).toNat)).length ::
          pageEntries (s.pool.take (pagesFor (halfAt p 2).toNat)), []⟩ := by
  rw [bankOpenOwner, hb]
  dsimp only
  rw [if_neg (not_not.2 h), State.openBank_bank, if_pos rfl]
  rfl

theorem exec_bankOpen_refused {s : State} {tag n lo hi : Byte} {status : Status}
    (ht : s.Takes ⟨0x10, tag, [n, 0, lo, hi]⟩)
    (h : bankOpenOwner [n, 0, lo, hi] s.popInbound = .refuse .bankOpen status s.popInbound) :
    exec (.bankOpen tag [n, 0, lo, hi]) s =
      .next (s.answered tag 0x10 status [0, 0, 0xFF, 0xFF, 0xFF, 0xFF]) :=
  congrArg Host.Outcome.next (State.take_refused (c := .bankOpen) ht rfl rfl h)

/-- Settles O39: the owner's answers in their order, the pages being the front of the pool list. -/
theorem bankOpenTakesTheLowestPages : Obligations.BankOpenTakesTheLowestPages := by
  refine ⟨fun s tag n lo hi ht hn => exec_bankOpen_refused ht (bankOpenOwner_noBank _ hn),
    fun s tag lo hi b ht => ?_⟩
  intro taps pages refused
  have bank : indexOf 32 (byteAt [natByte b.val, 0, lo, hi] 0) = some b := indexOf_natByte b (by decide)
  have answer (h : (s.bank b).state = .free) := bankOpenOwner_free (s := s.popInbound) bank h
  refine ⟨fun h => exec_bankOpen_refused ht (bankOpenOwner_inUse (s := s.popInbound) bank h), fun h hn => ?_,
    fun h h1 h2 hp => ?_, fun h h1 h2 hp => ?_, fun sorted x hx y hy => ?_⟩
  · refine exec_bankOpen_refused ht ((answer h).trans (if_pos ?_))
    show ¬ (1 ≤ taps ∧ taps ≤ 256)
    omega
  · exact exec_bankOpen_refused ht
      ((answer h).trans ((if_neg (not_not.2 ⟨h1, h2⟩)).trans (if_pos hp)))
  · have opened := (answer h).trans ((if_neg (not_not.2 ⟨h1, h2⟩)).trans (if_neg (not_lt.2 hp)))
    refine congrArg Host.Outcome.next
      ((State.take_next (c := .bankOpen) (t := s.openBank b taps) (ns := []) ht rfl rfl opened).trans ?_)
    have entries : natByte (s.pool.drop pages).length :: pageEntries (s.pool.take pages) =
        [natByte (s.pool.length - pages), natByte pages] ++
          (s.pool.take pages).map (fun p : PageId => natByte p.val) ++ List.replicate (4 - pages) 0xFF := by
      rw [pageEntries, List.length_drop, List.length_take_of_le hp]
      rfl
    exact congrArg (State.answered _ tag 0x10 .ok) entries
  · rw [← List.take_append_drop pages s.pool] at sorted
    exact (List.pairwise_append.1 sorted).2.2 x hx y hy

/-! ## Where the coefficients of a bank are (R27) -/

theorem Bank.address_eq_some {b : Bank} {k a : Nat} :
    b.address k = some a ↔ ∃ page, b.pages[k / 64]? = some page ∧ page.val * 64 + k % 64 = a := by
  simp [Bank.address, Config.pageWords]

/-- A bank that lists each page once has a place of its own for each coefficient. -/
theorem Bank.address_injective {b : Bank} (h : b.pages.Nodup) {i j a : Nat} (hi : b.address i = some a)
    (hj : b.address j = some a) : i = j := by
  obtain ⟨p, hp, rfl⟩ := Bank.address_eq_some.1 hi
  obtain ⟨q, hq, he⟩ := Bank.address_eq_some.1 hj
  have page : p = q := Fin.ext (by omega)
  subst page
  have place : i / 64 = j / 64 :=
    (List.getElem?_inj (List.getElem?_eq_some_iff.1 hp).1 h).1 (hp.trans hq.symm)
  omega

/-- Every page is owned once, so a bank lists each of its pages once (R28). -/
theorem State.PageLaw.pages_nodup {s : State} (h : s.PageLaw) (b : BankId) : (s.bank b).pages.Nodup := by
  exact List.nodup_iff_count_le_one.2 fun p => (Nat.le_add_left _ _).trans (h.count_le b p)

theorem State.setCoeff_placed {s : State} {b : Bank} {k a : Nat} (h : b.address k = some a) (w : StoredWord) :
    s.setCoeff b k w = { s with coeffMem := memWrite s.coeffMem a w } := by
  rw [State.setCoeff, h]

/-- A coefficient stored leaves every other place. -/
theorem State.memRead_setCoeff_ne {s : State} {b : Bank} {k a : Nat} (h : b.address k ≠ some a) (w : StoredWord) :
    memRead (s.setCoeff b k w).coeffMem a = memRead s.coeffMem a := by
  unfold State.setCoeff
  split
  · next a' ha =>
    exact memRead_memWrite_ne _ w fun e => h (e ▸ ha)
  · rfl

/-- Coefficients stored in order leave every place that is none of theirs. -/
theorem State.memRead_storeCoeffs_other (s : State) (b : Bank) (k : Nat) (xs : List Sample) {a : Nat}
    (h : ∀ j, j < xs.length → b.address (k + j) ≠ some a) :
    memRead (s.storeCoeffs b k xs).coeffMem a = memRead s.coeffMem a := by
  induction xs generalizing s k with
  | nil => rfl
  | cons x xs ih =>
    rw [State.storeCoeffs, ih, State.memRead_setCoeff_ne (show b.address k ≠ some a from h 0 (Nat.zero_lt_succ _))]
    intro j hj
    rw [Nat.add_assoc, Nat.add_comm 1]
    exact h (j + 1) (Nat.succ_lt_succ hj)

/-- Coefficients stored in order are read at their places, each with a good mark (R33). -/
theorem State.memRead_storeCoeffs {s : State} (hm : Memory.wf s.coeffMem = true) {b : Bank} (hb : b.pages.Nodup)
    (k : Nat) (xs : List Sample) {j a : Nat} (hj : j < xs.length) (ha : b.address (k + j) = some a) :
    memRead (s.storeCoeffs b k xs).coeffMem a = ⟨xs.getD j 0, true⟩ := by
  induction xs generalizing s k j with
  | nil => exact absurd hj (Nat.not_lt_zero j)
  | cons x xs ih =>
    rw [State.storeCoeffs]
    cases j with
    | zero =>
      rw [State.memRead_storeCoeffs_other _ _ _ _ fun i _ hi => ?_,
        State.setCoeff_placed (show b.address k = some a from ha)]
      · exact memRead_memWrite_self hm a _
      · have := Bank.address_injective hb hi ha
        omega
    | succ j =>
      rw [ih (State.setCoeff_wf hm b k _) (k + 1) (Nat.lt_of_succ_lt_succ hj) (by rw [← ha]; congr 1; omega)]
      rfl

theorem State.popInbound_setCoeff (s : State) (b : Bank) (k : Nat) (w : StoredWord) :
    s.popInbound.setCoeff b k w = (s.setCoeff b k w).popInbound := by
  unfold State.setCoeff
  split <;> rfl

theorem State.popInbound_storeCoeffs (s : State) (b : Bank) (k : Nat) (xs : List Sample) :
    s.popInbound.storeCoeffs b k xs = (s.storeCoeffs b k xs).popInbound := by
  induction xs generalizing s k with
  | nil => rfl
  | cons x xs ih => rw [State.storeCoeffs, State.popInbound_setCoeff, ih]; rfl

/-! ## BANK_DATA (R33) -/

/-- The two-byte values of a payload, read back in order. -/
theorem halvesAt_flatMap (pre : List Byte) (xs : List Sample) :
    halvesAt (pre ++ xs.flatMap halfBytes) pre.length xs.length = xs := by
  induction xs generalizing pre with
  | nil => rfl
  | cons x xs ih =>
    have rest := ih (pre ++ halfBytes x)
    rw [List.length_append, List.append_assoc] at rest
    have first : halfAt (pre ++ (halfBytes x ++ xs.flatMap halfBytes)) pre.length = x := by
      simp [halfAt, byteAt, halfBytes, halfBytes_append]
    rw [List.flatMap_cons, List.length_cons, halvesAt, first]
    exact congrArg (x :: ·) rest

/-- The payload of a BANK_DATA. -/
def dataPayload (n lo hi : Byte) (xs : List Sample) : List Byte := [n, 0, lo, hi] ++ xs.flatMap halfBytes

theorem dataPayload_length (n lo hi : Byte) (xs : List Sample) :
    (dataPayload n lo hi xs).length = 2 * xs.length + 4 := by
  simp [dataPayload, halfBytes, Nat.mul_comm]

theorem dataPayload_count (n lo hi : Byte) (xs : List Sample) :
    ((dataPayload n lo hi xs).length - 4) / 2 = xs.length := by
  rw [dataPayload_length]
  omega

theorem dataPayload_lengthOk {n lo hi : Byte} {xs : List Sample} (h1 : 1 ≤ xs.length) (h2 : xs.length ≤ 32) :
    lengthOk .bankData (dataPayload n lo hi xs).length = true := by
  simp only [lengthOk, dataPayload_length, Bool.and_eq_true, decide_eq_true_eq, beq_iff_eq]
  omega

theorem bankDataOwner_noBank {p : List Byte} (s : State) (h : 32 ≤ (byteAt p 0).toNat) :
    bankDataOwner p s = .refuse .bankData .badArg s := by
  rw [bankDataOwner, indexOf_eq_none.2 h]

theorem bankDataOwner_wrongState {p : List Byte} {s : State} {b : BankId} (hb : indexOf 32 (byteAt p 0) = some b)
    (h : (s.bank b).state ≠ .opened) : bankDataOwner p s = .refuse .bankData .wrongState s := by
  rw [bankDataOwner, hb]
  exact if_pos h

/-- An OPEN bank: the offset and the end of the piece decide. -/
theorem bankDataOwner_opened {s : State} {n lo hi : Byte} {xs : List Sample} {b : BankId}
    (hb : indexOf 32 n = some b) (h : (s.bank b).state = .opened) :
    bankDataOwner (dataPayload n lo hi xs) s =
      if (hi ++ lo : Half).toNat ≠ (s.bank b).loaded then ⟨s, .sequence, natBytes (s.bank b).loaded, []⟩
      else if (s.bank b).taps < (hi ++ lo : Half).toNat + xs.length then
        ⟨s, .badArg, natBytes (s.bank b).loaded, []⟩
      else ⟨(s.storeCoeffs (s.bank b) (hi ++ lo : Half).toNat xs).modBank b fun k =>
          { k with loaded := k.loaded + xs.length }, .ok, natBytes ((s.bank b).loaded + xs.length), []⟩ := by
  have number : indexOf 32 (byteAt (dataPayload n lo hi xs) 0) = some b := hb
  have offset : halfAt (dataPayload n lo hi xs) 2 = hi ++ lo := rfl
  have pieces : halvesAt (dataPayload n lo hi xs) 4 xs.length = xs := halvesAt_flatMap [n, 0, lo, hi] xs
  rw [bankDataOwner, number]
  dsimp only
  rw [if_neg (not_not.2 h), dataPayload_count, offset, pieces]

/-- Settles O40: the owner's answers in their order, and the words of the memory that it leaves. -/
theorem bankDataStoresInOrder : Obligations.BankDataStoresInOrder := by
  intro s tag n lo hi xs h1 h2 p offset ht
  have length : lengthOk .bankData p.length = true := dataPayload_lengthOk h1 h2
  have refuse (status : Status) (body : List Byte)
      (h : bankDataOwner p s.popInbound = ⟨s.popInbound, status, body, []⟩) :
      exec (.bankData tag p) s = .next (s.answered tag 0x11 status body) :=
    congrArg Host.Outcome.next (State.take_next (c := .bankData) (t := s) ht length rfl h)
  refine ⟨fun h => refuse _ _ (bankDataOwner_noBank _ h), fun b hn => ?_⟩
  intro k
  have bank : indexOf 32 n = some b := hn ▸ indexOf_natByte b (by decide)
  have answer (h : k.state = .opened) : bankDataOwner p s.popInbound = _ :=
    bankDataOwner_opened (s := s.popInbound) bank h
  refine ⟨fun h => refuse _ _ (bankDataOwner_wrongState (p := p) (s := s.popInbound) bank h),
    fun h ho => refuse _ _ ((answer h).trans (if_pos ho)),
    fun h ho he => refuse _ _ ((answer h).trans ((if_neg (not_not.2 ho)).trans (if_pos he))),
    fun h ho he hl hm => ?_⟩
  have stored := (answer h).trans ((if_neg (not_not.2 ho)).trans (if_neg (not_lt.2 he)))
  rw [State.popInbound_storeCoeffs] at stored
  refine ⟨(s.storeCoeffs k offset xs).coeffMem, ?_, State.storeCoeffs_wf hm _ _ _, fun j page hj hp => ?_,
    fun a ha => ?_⟩
  · refine congrArg Host.Outcome.next ((State.take_next (c := .bankData) (ns := [])
      (t := (s.storeCoeffs k offset xs).modBank b fun k => { k with loaded := k.loaded + xs.length })
      ht length rfl stored).trans ?_)
    rw [State.raiseAll_nil, State.storeCoeffs_frame]
    rfl
  · exact State.memRead_storeCoeffs hm (hl.pages_nodup b) _ xs hj
      (Bank.address_eq_some.2 ⟨page, ho ▸ hp, by rw [ho]⟩)
  · refine State.memRead_storeCoeffs_other s k offset xs fun j hj haddr => ?_
    obtain ⟨page, hp, rfl⟩ := Bank.address_eq_some.1 haddr
    exact ha j page hj (ho ▸ hp) (by rw [ho])

end Sys2Proof.Machine
end

section
/-! PROOFS. BANK_SEAL, BANK_FREE and BANK_QUERY with their whole next state (O41, O42), and the marking of a
coefficient found bad during a dispatch (O25). -/

namespace Sys2Proof.Machine

/-! ## BANK_SEAL (R34, R35) -/

/-- The bank checksum of the coefficients as stored. -/
def State.bankSum (s : State) (k : Bank) : Half :=
  crc16 ((List.range k.taps).flatMap fun j => halfBytes (s.coeff k j).value)

theorem checksum_readBack (s : State) (k : Bank) : checksum (s.readBack k) = s.bankSum k := by
  rw [checksum, State.readBack, List.flatMap_map]
  rfl

theorem readBack_all_markGood (s : State) (k : Bank) :
    (s.readBack k).all (·.markGood) = true ↔ ∀ j, j < k.taps → (s.coeff k j).markGood = true := by
  simp [State.readBack]

theorem State.popInbound_upsetCoeffs (s : State) (k : Bank) (us : List (Fin 256 × Sample)) :
    s.popInbound.upsetCoeffs k us = (s.upsetCoeffs k us).popInbound := by
  unfold State.upsetCoeffs
  induction us generalizing s with
  | nil => rfl
  | cons u us ih =>
    rw [List.foldl_cons, List.foldl_cons, ← ih]
    split
    · rw [State.popInbound_setCoeff]
    · rfl

theorem bankSealOwner_noBank {p : List Byte} {us : List (Fin 256 × Sample)} (s : State)
    (h : 32 ≤ (byteAt p 0).toNat) : bankSealOwner p us s = .refuse .bankSeal .badArg s := by
  rw [bankSealOwner, indexOf_eq_none.2 h]

theorem bankSealOwner_wrongState {p : List Byte} {us : List (Fin 256 × Sample)} {s : State} {b : BankId}
    (hb : indexOf 32 (byteAt p 0) = some b) (h : (s.bank b).state ≠ .opened) :
    bankSealOwner p us s = .refuse .bankSeal .wrongState s := by
  rw [bankSealOwner, hb]
  exact if_pos h

theorem bankSealOwner_incomplete {p : List Byte} {us : List (Fin 256 × Sample)} {s : State} {b : BankId}
    (hb : indexOf 32 (byteAt p 0) = some b) (h : (s.bank b).state = .opened)
    (hl : (s.bank b).loaded ≠ (s.bank b).taps) : bankSealOwner p us s = .refuse .bankSeal .incomplete s := by
  rw [bankSealOwner, hb]
  exact (if_neg (not_not.2 h)).trans (if_pos hl)

/-- A bank fully loaded: the marks and the checksum of what is read back decide. -/
theorem bankSealOwner_loaded {p : List Byte} {us : List (Fin 256 × Sample)} {s t : State} {b : BankId}
    (hb : indexOf 32 (byteAt p 0) = some b) (h : (s.bank b).state = .opened)
    (hl : (s.bank b).loaded = (s.bank b).taps) (ht : s.upsetCoeffs (s.bank b) us = t) :
    bankSealOwner p us s =
      if (t.readBack (s.bank b)).all (·.markGood) && t.bankSum (s.bank b) == halfAt p 2 then
        ⟨t.modBank b fun k => { k with state := .sealed }, .ok, halfBytes (t.bankSum (s.bank b)), []⟩
      else
        ⟨t.modBank b fun k => { k with loaded := 0 }, .checkFail, halfBytes (t.bankSum (s.bank b)), []⟩ := by
  rw [bankSealOwner, hb]
  dsimp only
  rw [if_neg (not_not.2 h), if_neg (not_not.2 hl), ht, checksum_readBack]

section
variable {s t : State} {tag lo hi : Byte} {us : List (Fin 256 × Sample)} {b : BankId}

theorem exec_bankSeal_refused {n : Byte} {status : Status} (ht : s.Takes ⟨0x12, tag, [n, 0, lo, hi]⟩)
    (h : bankSealOwner [n, 0, lo, hi] us s.popInbound = .refuse .bankSeal status s.popInbound) :
    exec (.bankSeal tag [n, 0, lo, hi] us) s = .next (s.answered tag 0x12 status [0, 0]) :=
  congrArg Host.Outcome.next (State.take_refused (c := .bankSeal) ht rfl rfl h)

/-- A fully loaded bank whose marks are good and whose checksum agrees is sealed; `t` is the state after the words
found bad at the read-back. -/
theorem exec_bankSeal_sealed (ht : s.Takes ⟨0x12, tag, [natByte b.val, 0, lo, hi]⟩)
    (h : (s.bank b).state = .opened) (hl : (s.bank b).loaded = (s.bank b).taps)
    (hu : s.upsetCoeffs (s.bank b) us = t)
    (hg : ∀ j, j < (s.bank b).taps → (t.coeff (s.bank b) j).markGood = true)
    (hs : t.bankSum (s.bank b) = hi ++ lo) :
    exec (.bankSeal tag [natByte b.val, 0, lo, hi] us) s =
      .next ((t.modBank b fun k => { k with state := .sealed }).answered tag 0x12 .ok
        (halfBytes (t.bankSum (s.bank b)))) := by
  have answer := bankSealOwner_loaded (s := s.popInbound) (p := [natByte b.val, 0, lo, hi])
    (indexOf_natByte b (by decide)) h hl ((s.popInbound_upsetCoeffs _ us).trans (congrArg _ hu))
  refine congrArg Host.Outcome.next (State.take_next (c := .bankSeal) (ns := []) ht rfl rfl
    (answer.trans (if_pos ?_)))
  rw [Bool.and_eq_true, beq_iff_eq]
  exact ⟨(readBack_all_markGood t (s.bank b)).2 hg, hs⟩

/-- A bad mark or a different checksum fails the seal. -/
theorem exec_bankSeal_failed (ht : s.Takes ⟨0x12, tag, [natByte b.val, 0, lo, hi]⟩)
    (h : (s.bank b).state = .opened) (hl : (s.bank b).loaded = (s.bank b).taps)
    (hu : s.upsetCoeffs (s.bank b) us = t)
    (hf : (∃ j, j < (s.bank b).taps ∧ (t.coeff (s.bank b) j).markGood = false) ∨
      t.bankSum (s.bank b) ≠ hi ++ lo) :
    exec (.bankSeal tag [natByte b.val, 0, lo, hi] us) s =
      .next ((t.modBank b fun k => { k with loaded := 0 }).answered tag 0x12 .checkFail
        (halfBytes (t.bankSum (s.bank b)))) := by
  have answer := bankSealOwner_loaded (s := s.popInbound) (p := [natByte b.val, 0, lo, hi])
    (indexOf_natByte b (by decide)) h hl ((s.popInbound_upsetCoeffs _ us).trans (congrArg _ hu))
  refine congrArg Host.Outcome.next (State.take_next (c := .bankSeal) (ns := []) ht rfl rfl
    (answer.trans (if_neg ?_)))
  rw [Bool.and_eq_true, beq_iff_eq]
  rintro ⟨hg, hs⟩
  have good := (readBack_all_markGood t (s.bank b)).1 hg
  rcases hf with ⟨j, hj, hbad⟩ | hne
  · exact Bool.false_ne_true (hbad.symm.trans (good j hj))
  · exact hne hs

end

/-- Settles O41: the owner's answers in their order, on the words as the read-back finds them. -/
theorem bankSealChecksTheChecksum : Obligations.BankSealChecksTheChecksum := by
  refine ⟨fun s tag n lo hi us ht hn => exec_bankSeal_refused ht (bankSealOwner_noBank _ hn),
    fun s tag lo hi us b ht => ?_⟩
  intro p k sum
  have bank : indexOf 32 (byteAt p 0) = some b := indexOf_natByte b (by decide)
  refine ⟨fun h => exec_bankSeal_refused ht (bankSealOwner_wrongState (s := s.popInbound) bank h),
    fun h hl => exec_bankSeal_refused ht (bankSealOwner_incomplete (s := s.popInbound) bank h hl),
    fun h hl hu hg hs => ?_, fun h hl hu hf => ?_, fun j v page h hl hu hj hp hm => ?_⟩
  · subst hu
    exact exec_bankSeal_sealed ht h hl rfl hg hs
  · subst hu
    exact exec_bankSeal_failed ht h hl rfl hf
  · intro m
    subst hu
    have placed : k.address j.val = some (page.val * 64 + j.val % 64) := Bank.address_eq_some.2 ⟨page, hp, rfl⟩
    have upset : s.upsetCoeffs k [(j, v)] = { s with coeffMem := m } :=
      (if_pos hj).trans (State.setCoeff_placed placed _)
    refine exec_bankSeal_failed ht h hl upset (.inl ⟨j.val, hj, ?_⟩)
    rw [State.coeff, placed]
    exact congrArg StoredWord.markGood (memRead_memWrite_self hm _ _)

/-! ## BANK_FREE (R36) -/

theorem bankFreeOwner_noBank {p : List Byte} (s : State) (h : 32 ≤ (byteAt p 0).toNat) :
    bankFreeOwner p s = .refuse .bankFree .badArg s := by
  rw [bankFreeOwner, indexOf_eq_none.2 h]

theorem bankFreeOwner_bank {p : List Byte} {s : State} {b : BankId} (hb : indexOf 32 (byteAt p 0) = some b) :
    bankFreeOwner p s =
      if (s.bank b).state = .free then .refuse .bankFree .wrongState s
      else if 0 < (s.bank b).refs then .refuse .bankFree .inUse s
      else if (s.bank b).hold then .refuse .bankFree .busy s
      else .done .ok (s.freeBank b) := by
  rw [bankFreeOwner, hb]

/-! ## BANK_QUERY (R43) -/

theorem reservedOk_bankQuery {n flag : Byte} (h : flag.toNat < 2) : reservedOk .bankQuery [n, flag] = true :=
  decide_eq_true h

theorem bankQueryOwner_noBank {p : List Byte} (s : State) (h : 32 ≤ (byteAt p 0).toNat) :
    bankQueryOwner p s = .refuse .bankQuery .badArg s := by
  rw [bankQueryOwner, indexOf_eq_none.2 h]

theorem bankQueryOwner_bank {p : List Byte} {s : State} {b : BankId} (hb : indexOf 32 (byteAt p 0) = some b) :
    bankQueryOwner p s = ⟨s, .ok, (s.bank b).report s.pool.length, []⟩ := by
  rw [bankQueryOwner, hb]

/-- The bytes of a report, one field after another (section 9.4). -/
theorem Bank.report_eq (k : Bank) (n : Nat) :
    k.report n = [k.state.code] ++ natBytes k.taps ++ natBytes k.reportedLoaded ++
      [natByte k.refs, boolByte k.hold, natByte k.pages.length] ++
      k.pages.map (fun p => natByte p.val) ++ List.replicate (4 - k.pages.length) 0xFF ++ [natByte n] := by
  simp [Bank.report, pageEntries]

/-- Settles O42: the owners' answers, the pool after a BANK_FREE being the old one with the bank's pages entered. -/
theorem bankFreeReturnsThePages : Obligations.BankFreeReturnsThePages := by
  refine ⟨fun s tag n ht hn => ?_, fun s tag b ht => ?_, fun s tag n flag ht hf hn => ?_,
    fun s tag flag b ht hf => ?_⟩
  · exact congrArg Host.Outcome.next (State.take_refused (c := .bankFree) ht rfl rfl (bankFreeOwner_noBank _ hn))
  · intro k refused
    have refuse (status : Status) (h : bankFreeOwner [natByte b.val, 0] s.popInbound =
        .refuse .bankFree status s.popInbound) : refused status :=
      congrArg Host.Outcome.next (State.take_refused (c := .bankFree) ht rfl rfl h)
    have answer := bankFreeOwner_bank (p := [natByte b.val, 0]) (s := s.popInbound) (b := b)
      (indexOf_natByte b (by decide))
    refine ⟨fun h => refuse _ (answer.trans (if_pos h)),
      fun h hr => refuse _ (answer.trans ((if_neg h).trans (if_pos hr))),
      fun h hr hh => refuse _ (answer.trans ((if_neg h).trans ((if_neg hr.not_gt).trans (if_pos hh)))),
      fun h hr hh => ?_⟩
    have freed := answer.trans
      ((if_neg h).trans ((if_neg hr.not_gt).trans (if_neg (Bool.eq_false_iff.1 hh))))
    exact ⟨_, mem_foldl_insertAsc k.pages s.pool, foldl_insertAsc_pairwise k.pages,
      congrArg Host.Outcome.next (State.take_next (c := .bankFree) (t := s.freeBank b) (ns := []) ht rfl rfl freed)⟩
  · exact congrArg Host.Outcome.next
      (State.take_refused (c := .bankQuery) ht rfl (reservedOk_bankQuery hf) (bankQueryOwner_noBank _ hn))
  · intro k loaded
    have answer := bankQueryOwner_bank (p := [natByte b.val, flag]) (s := s.popInbound) (b := b)
      (indexOf_natByte b (by decide))
    refine congrArg Host.Outcome.next ((State.take_next (c := .bankQuery) (t := s) (ns := []) ht rfl
      (reservedOk_bankQuery hf) answer).trans ?_)
    exact congrArg (State.answered s tag 0x14 .ok) (Bank.report_eq k s.pool.length)

/-! ## DAMAGE_MARKING (R40, R77) -/

/-- A computation whose reads are all good is not stopped (R77). -/
theorem accumulate_ok (g : ChanConfig) (c x : Nat → StoredWord) (n k : Nat) (acc : Int × Bool)
    (h : ∀ j, j < n → (c (k + j)).markGood = true ∧ (x (k + j)).markGood = true) :
    ∃ r, accumulate g c x n k acc = .ok r := by
  induction n generalizing k acc with
  | zero => exact ⟨acc, rfl⟩
  | succ n ih =>
    obtain ⟨hc, hx⟩ : (c k).markGood = true ∧ (x k).markGood = true := h 0 (Nat.zero_lt_succ n)
    rw [accumulate, hc, hx]
    refine ih (k + 1) _ fun j hj => ?_
    rw [Nat.add_assoc, Nat.add_comm 1]
    exact h (j + 1) (Nat.succ_lt_succ hj)

/-- A term with every earlier read good is read by the dispatch. -/
theorem State.readsCoeff_of_good {s : State} {d : Dispatch} {e : SnapEntry} {b : Bank} {k : Nat} (hk : k < e.terms b)
    (h : ∀ j, j < k → (s.coeff b j).markGood = true ∧ (s.sampleAt d e.channel j).markGood = true) :
    s.readsCoeff d e b k = true := by
  obtain ⟨r, hr⟩ := accumulate_ok (s.chan e.channel).config (s.coeff b) (s.sampleAt d e.channel) k 0 (0, false)
    fun j hj => by rw [Nat.zero_add]; exact h j hj
  have good : s.accumulateFor d e b k = .ok r := hr
  rw [State.readsCoeff, good, Bool.and_true]
  exact decide_eq_true hk

/-- The marking of a coefficient that has a place. -/
theorem State.markDamage_eq {s : State} {b : BankId} {k a : Nat} (d : Dispatch) (c : ChanId)
    (ha : (s.bank b).address k = some a) :
    s.markDamage d c b k = { s with
      coeffMem := memWrite s.coeffMem a ⟨(memRead s.coeffMem a).value, false⟩
      banks := s.banks.set b.val
        (if (s.bank b).state = .sealed then { s.bank b with state := .damaged } else s.bank b)
      engine := { s.engine with dispatch := some { d with snapshot := d.snapshot.map fun e =>
        if e.channel = c then { e with fault := some (.bank b) } else e } } } := by
  unfold State.markDamage
  rw [State.setCoeff_placed ha, State.coeff, ha]
  rfl

/-- Settles O25: the word is one that the dispatch reads, so it is marked. -/
theorem damageMarkingDamagesTheBankAtOnce : Obligations.DamageMarkingDamagesTheBankAtOnce := by
  intro s c k d e b page hd he hdue hfault hbank hk hgood hp
  have channel : e.channel = c := by simpa using List.find?_some he
  have entry : s.entryOf c = some (d, e) := by rw [State.entryOf, hd, Option.bind_some, he]; rfl
  have reads : e.reads = some b := by rw [SnapEntry.reads, hdue, hfault]; exact hbank
  have read : s.readsCoeff d e (s.bank b) k.val = true :=
    State.readsCoeff_of_good hk fun j hj => by rw [channel]; exact hgood j hj
  have placed : (s.bank b).address k.val = some (page.val * 64 + k.val % 64) :=
    Bank.address_eq_some.2 ⟨page, hp, rfl⟩
  show execDamageMarking c k s = _
  rw [execDamageMarking, entry]
  dsimp only
  rw [reads]
  dsimp only
  rw [if_pos read, State.markDamage_eq d c placed]

end Sys2Proof.Machine
end

section
/-! PROOFS. What a word that arrives makes of its lane, one equation for each row of the table of section 3.3, and the
obligations on words (O19 to O22). -/

namespace Sys2Proof.Machine

/-! ## The rows of the lock machine (R48 to R53) -/

/-- The lane once a word is counted and the bits it was gathered from are gone (R46, R48). -/
def Lane.counted (r : Lane) : Lane :=
  { r with received := inc16 r.received, partialWord := r.partialWord.taken }

section
variable {r : Lane} {needed : SlotId → Bool} {l : LaneId} {w : Sample} {marker : Bool}

theorem Lane.arrive_off (h : r.state = .off) : r.arrive needed l w marker = (r, []) := by
  rw [Lane.arrive, h]

theorem Lane.arrive_on (h : r.state ≠ .off) : r.arrive needed l w marker = r.counted.lock needed l w marker := by
  unfold Lane.arrive
  split
  · contradiction
  all_goals rfl

theorem Lane.lock_off (h : r.state = .off) : r.lock needed l w marker = (r, []) := by
  rw [Lane.lock, h]

theorem Lane.lock_hunt (h : r.state = .hunt) :
    r.lock needed l w marker = (if marker then r.toCheck else { r with position := 0 }, []) := by
  rw [Lane.lock, h]

theorem Lane.lock_check_below (h : r.state = .check) (hp : r.position < r.slotCount) :
    r.lock needed l w marker =
      (if marker then r.toCheck else { r with position := r.position + 1 }, []) := by
  rw [Lane.lock, h]
  exact if_pos hp

theorem Lane.lock_check_misses (h : r.state = .check) (hp : ¬ r.position < r.slotCount) :
    r.lock needed l w false = (r.toHunt, []) := by
  rw [Lane.lock, h]
  exact if_neg hp

/-- The marker after exactly M words locks the lane, and its word is offered as slot 0 (R51). -/
theorem Lane.lock_check_locks (h : r.state = .check) (hp : ¬ r.position < r.slotCount) :
    r.lock needed l w true =
      ((Lane.offer { r with state := .locked, position := 1 % r.slotCount } needed l 0 w).1,
       .laneLocked l :: (Lane.offer { r with state := .locked, position := 1 % r.slotCount } needed l 0 w).2) := by
  rw [Lane.lock, h]
  exact if_neg hp

/-- A word that keeps its place is offered as the word of the slot at the position (R52). -/
theorem Lane.lock_inPlace (h : r.state = .locked) (hm : marker = decide (r.position = 0)) :
    r.lock needed l w marker =
      Lane.offer { r with position := (r.position + 1) % r.slotCount } needed l (slotOf r.position) w := by
  rw [Lane.lock, h]
  exact if_pos hm

theorem Lane.lock_misframes (h : r.state = .locked) (hm : marker ≠ decide (r.position = 0)) :
    r.lock needed l w marker = r.misframe l marker := by
  rw [Lane.lock, h]
  exact if_neg hm

theorem Lane.offer_unneeded {p : SlotId} (h : needed p = false) : r.offer needed l p w = (r, []) :=
  if_neg (Bool.eq_false_iff.1 h)

theorem Lane.offer_admits {p : SlotId} (h : needed p = true) (hr : r.fifo.length < 32) :
    r.offer needed l p w =
      ({ r with fifo := r.fifo ++ [⟨p, w, r.gapPending.contains p⟩]
                gapPending := r.gapPending.filter (· != p) }, []) :=
  (if_pos h).trans (if_pos hr)

theorem Lane.offer_overruns {p : SlotId} (h : needed p = true) (hr : 32 ≤ r.fifo.length) :
    r.offer needed l p w =
      ({ r with overruns := inc16 r.overruns, gapPending := insertAsc p r.gapPending, latch := true },
       if r.latch then [] else [.laneOverrun l]) :=
  (if_pos h).trans (if_neg hr.not_gt)

/-- The lane that a misframe leaves, in CHECK or in HUNT by the marker (R53). -/
theorem Lane.misframe_eq :
    r.misframe l marker =
      ({ r with
          misframes := inc16 r.misframes
          gapPending := r.allSlots.foldl (fun g p => insertAsc p g) r.gapPending
          state := if marker then .check else .hunt
          position := if marker then 1 else 0
          partialWord := .empty },
       [.laneLost l (if marker then .earlyMarker else .missingMarker)]) := by
  cases marker <;> rfl

end

theorem Lane.mem_allSlots {r : Lane} {p : SlotId} : p ∈ r.allSlots ↔ p.val < r.slotCount := by
  simp [Lane.allSlots]

theorem slotOf_val {p : Nat} (h : p < 8) : (slotOf p).val = p := Nat.mod_eq_of_lt h

theorem slotOf_slot (p : SlotId) : slotOf p.val = p := Fin.ext (slotOf_val p.isLt)

theorem State.needed_iff {s : State} {l : LaneId} {p : SlotId} :
    s.needed l p = true ↔
      ∃ c, (s.chan c).state = .running ∧ (s.chan c).config.lane = l ∧ (s.chan c).config.slot = p := by
  simp [State.needed, and_assoc]

/-- A word arrived: the lane record replaced and the notices raised. -/
theorem exec_wordArrival {s : State} {l : LaneId} {w : Sample} {marker : Bool} {r : Lane} {ns : List Notice}
    (h : (s.lane l).arrive (s.needed l) l w marker = (r, ns)) :
    exec (.wordArrival l w marker) s = .next (State.raiseAll { s with lanes := s.lanes.set l.val r } ns) := by
  show Host.Outcome.next ((s.modLane l fun _ => ((s.lane l).arrive (s.needed l) l w marker).1).raiseAll
    ((s.lane l).arrive (s.needed l) l w marker).2) = _
  rw [h]
  rfl

/-- A word that arrives on a lane that is not OFF, as the lock machine takes it once it is counted. -/
theorem exec_wordArrival_lock {s : State} {l : LaneId} {w : Sample} {marker : Bool} {r : Lane} {ns : List Notice}
    (hs : (s.lane l).state ≠ .off) (h : (s.lane l).counted.lock (s.needed l) l w marker = (r, ns)) :
    exec (.wordArrival l w marker) s = .next (State.raiseAll { s with lanes := s.lanes.set l.val r } ns) :=
  exec_wordArrival ((Lane.arrive_on hs).trans h)

/-! ## The obligations on words -/

/-- Settles O19: the row of HUNT, whose two lanes are the one named. -/
theorem huntWaitsForTheMarker : Obligations.HuntWaitsForTheMarker := by
  intro s l w marker hs
  have on : (s.lane l).state ≠ .off := by rw [hs]; exact (nomatch ·)
  have hunt : (s.lane l).counted.state = .hunt := hs
  refine exec_wordArrival_lock (ns := []) on ((Lane.lock_hunt hunt).trans ?_)
  cases marker with
  | true => rfl
  | false => simp [Lane.counted, PartialWord.taken, ← hs]

/-- Settles O20: the rows of CHECK. -/
theorem checkCountsToTheNextMarker : Obligations.CheckCountsToTheNextMarker := by
  intro s l w hs r
  have on : (s.lane l).state ≠ .off := by rw [hs]; exact (nomatch ·)
  have check : (s.lane l).counted.state = .check := hs
  refine ⟨fun hp => ?_, fun hp => ?_, fun hp => ?_, fun hp => ?_⟩
  · exact exec_wordArrival_lock on (Lane.lock_check_below check hp)
  · refine exec_wordArrival_lock (ns := []) on ((Lane.lock_check_below check hp).trans ?_)
    simp [Lane.toCheck, Lane.counted, PartialWord.taken, PartialWord.empty, r, ← hs]
  · exact exec_wordArrival_lock on (Lane.lock_check_misses check hp.not_lt)
  · exact exec_wordArrival_lock on (Lane.lock_check_locks check hp.not_lt)

/-- Settles O21: the row of LOCKED for a word in its place, and the three ways of admission. -/
theorem lockedWordsAreNumberedAndAdmitted : Obligations.LockedWordsAreNumberedAndAdmitted := by
  intro s l w p hs hp needed r
  have on : (s.lane l).state ≠ .off := by rw [hs]; exact (nomatch ·)
  have place : decide (p = 0) = decide ((s.lane l).position = 0) := by
    rw [hp]; exact decide_eq_decide.2 Fin.ext_iff
  have offered : (s.lane l).counted.lock (s.needed l) l w (decide (p = 0)) = r.offer (s.needed l) l p w := by
    rw [Lane.lock_inPlace (r := (s.lane l).counted) hs place]
    show Lane.offer { (s.lane l).counted with position := ((s.lane l).position + 1) % (s.lane l).slotCount } _ l
      (slotOf (s.lane l).position) w = _
    rw [hp, slotOf_slot]
    rfl
  refine ⟨fun hn => ?_, fun hn hr => ?_, fun hn hr => ?_⟩
  · have unneeded : s.needed l p = false := Bool.eq_false_iff.2 (mt State.needed_iff.1 hn)
    exact exec_wordArrival_lock on (offered.trans (Lane.offer_unneeded unneeded))
  · exact exec_wordArrival_lock on (offered.trans (Lane.offer_admits (State.needed_iff.2 hn) hr))
  · refine (exec_wordArrival_lock on (offered.trans (Lane.offer_overruns (State.needed_iff.2 hn) hr))).trans ?_
    split <;> rfl

/-- Settles O22: the row of LOCKED for a word out of its place; the set is the old one with the slots below M. -/
theorem misframeLosesTheLane : Obligations.MisframeLosesTheLane := by
  intro s l w marker hs hm
  refine ⟨(s.lane l).allSlots.foldl (fun g p => insertAsc p g) (s.lane l).gapPending, fun p => ?_,
    foldl_insertAsc_pairwise _, ?_⟩
  · rw [mem_foldl_insertAsc, Lane.mem_allSlots, or_comm]
  · have on : (s.lane l).state ≠ .off := by rw [hs]; exact (nomatch ·)
    exact exec_wordArrival_lock on 
      ((Lane.lock_misframes (r := (s.lane l).counted) hs hm).trans Lane.misframe_eq)

end Sys2Proof.Machine
end

section
/-! PROOFS. The laws of the two edges of the part, the lanes and the host link, as laws of one lane record and of one
link record: what an event can make of either, and that the laws are kept (O51, O57). -/

namespace Sys2Proof.Machine

/-- What every change keeps, a sequence of changes keeps. -/
theorem keeps_of_reflTransGen {α : Type} {change : α → α → Prop} {P : α → Prop}
    (h : ∀ a b, change a b → P a → P b) {a b : α} (hc : Relation.ReflTransGen change a b) (ha : P a) : P b := by
  induction hc with
  | refl => exact ha
  | tail _ hbc ih => exact h _ _ hbc ih

/-! ## Changes of a lane record -/

/-- What an event can make of a lane record. -/
inductive Lane.Change : Lane → Lane → Prop
  | arrive (r : Lane) (needed : SlotId → Bool) (l : LaneId) (w : Sample) (marker : Bool) :
      Change r (r.arrive needed l w marker).1
  | pop (r : Lane) : Change r r.popHead
  | configure (r : Lane) (enable : Bool) {m : Nat} (h : 1 ≤ m ∧ m ≤ 8) : Change r (r.configure enable m)
  | clear (r : Lane) : Change r r.clearCounters
  | reset (r : Lane) : Change r .reset

/-- A sequence of changes of a lane record. -/
def Lane.Changes : Lane → Lane → Prop := Relation.ReflTransGen Lane.Change

theorem Lane.Change.changes {r r' : Lane} (h : r.Change r') : r.Changes r' := Relation.ReflTransGen.single h

theorem Lane.Changes.of_eq {r r' : Lane} (h : r' = r) : r.Changes r' := h ▸ Relation.ReflTransGen.refl

theorem Lane.Changes.trans {r r' r'' : Lane} (h : r.Changes r') (h' : r'.Changes r'') : r.Changes r'' :=
  Relation.ReflTransGen.trans h h'

/-! ## The lane law (the table of section 3.2, R56) -/

section
variable {r : Lane} {needed : SlotId → Bool} {l : LaneId} {w : Sample} {marker : Bool}

theorem Lane.Law.counted (h : r.Law) : r.counted.Law :=
  ⟨h.count, h.outside, h.check, h.locked, h.gaps, h.latched⟩

theorem Lane.Law.toCheck (h : r.Law) : r.toCheck.Law where
  count := h.count
  outside := by rintro (h | h) <;> exact nomatch h
  check _ := ⟨le_rfl, h.count.1⟩
  locked := (nomatch ·)
  gaps := h.gaps
  latched := h.latched

theorem Lane.Law.toHunt (h : r.Law) : r.toHunt.Law where
  count := h.count
  outside _ := rfl
  check := (nomatch ·)
  locked := (nomatch ·)
  gaps := h.gaps
  latched := h.latched

/-- A position within M puts a lane in LOCKED. -/
theorem Lane.Law.toLocked (h : r.Law) {p : Nat} (hp : p < r.slotCount) :
    Lane.Law { r with state := .locked, position := p } where
  count := h.count
  outside := by rintro (h | h) <;> exact nomatch h
  check := (nomatch ·)
  locked _ := hp
  gaps := h.gaps
  latched := h.latched

/-- Slots below M entered into the gap-pending set. -/
theorem Lane.Law.withGaps (h : r.Law) {g : List SlotId} (hg : g.Pairwise (· < ·))
    (hm : ∀ p ∈ g, p.val < r.slotCount) : Lane.Law { r with gapPending := g } :=
  ⟨h.count, h.outside, h.check, h.locked, ⟨hg, hm⟩, h.latched⟩

/-- A word admitted, or dropped as an overrun with the FIFO full, so not empty (R55, R56). -/
theorem Lane.Law.offer (h : r.Law) {p : SlotId} (hp : p.val < r.slotCount) : (r.offer needed l p w).1.Law := by
  cases hn : needed p with
  | false => rw [Lane.offer_unneeded hn]; exact h
  | true =>
    obtain ⟨order, below⟩ := h.gaps
    by_cases hr : r.fifo.length < 32
    · rw [Lane.offer_admits hn hr]
      have left := h.withGaps (order.filter (· != p)) fun q hq => below q (List.mem_filter.1 hq).1
      exact ⟨left.count, left.outside, left.check, left.locked, left.gaps,
        fun _ => List.append_ne_nil_of_right_ne_nil _ (List.cons_ne_nil _ _)⟩
    · rw [Lane.offer_overruns hn (not_lt.1 hr)]
      have entered := h.withGaps (insertAsc_pairwise p order) fun q hq => by
        rcases (mem_insertAsc p q _).1 hq with rfl | hq
        · exact hp
        · exact below q hq
      refine ⟨entered.count, entered.outside, entered.check, entered.locked, entered.gaps, fun _ he => hr ?_⟩
      exact (congrArg List.length he).trans_lt (by decide)

/-- Every slot below M becomes gap-pending (R53). -/
theorem Lane.Law.misframe (h : r.Law) : (r.misframe l marker).1.Law := by
  obtain ⟨order, below⟩ := h.gaps
  have marked := h.withGaps (foldl_insertAsc_pairwise r.allSlots order) fun p hp => by
    rcases (mem_foldl_insertAsc r.allSlots _ p).1 hp with hp | hp
    · exact below p hp
    · exact Lane.mem_allSlots.1 hp
  have tallied : Lane.Law { r with
      misframes := inc16 r.misframes, gapPending := r.allSlots.foldl (fun g p => insertAsc p g) r.gapPending } :=
    ⟨marked.count, marked.outside, marked.check, marked.locked, marked.gaps, marked.latched⟩
  cases marker with
  | true => exact tallied.toCheck
  | false => exact tallied.toHunt

/-- Every row of the lock machine keeps the lane law. -/
theorem Lane.Law.lock (h : r.Law) : (r.lock needed l w marker).1.Law := by
  obtain ⟨one, eight⟩ := h.count
  cases hs : r.state with
  | off => rw [Lane.lock_off hs]; exact h
  | hunt =>
    rw [Lane.lock_hunt hs]
    cases marker with
    | true => exact h.toCheck
    | false =>
      refine ⟨h.count, fun _ => rfl, fun hc => ?_, fun hl => ?_, h.gaps, h.latched⟩
      · exact nomatch hs.symm.trans hc
      · exact nomatch hs.symm.trans hl
  | check =>
    by_cases hp : r.position < r.slotCount
    · rw [Lane.lock_check_below hs hp]
      cases marker with
      | true => exact h.toCheck
      | false =>
        refine ⟨h.count, fun ho => ?_, fun _ => ⟨Nat.succ_pos _, hp⟩, fun hl => ?_, h.gaps, h.latched⟩
        · rcases ho with ho | ho <;> exact nomatch hs.symm.trans ho
        · exact nomatch hs.symm.trans hl
    · cases marker with
      | true =>
        rw [Lane.lock_check_locks hs hp]
        exact (h.toLocked (Nat.mod_lt _ one)).offer one
      | false => rw [Lane.lock_check_misses hs hp]; exact h.toHunt
  | locked =>
    have below := h.locked hs
    by_cases hm : marker = decide (r.position = 0)
    · rw [Lane.lock_inPlace hs hm]
      have moved : Lane.Law { r with position := (r.position + 1) % r.slotCount } := by
        have := h.toLocked (Nat.mod_lt (r.position + 1) one)
        rwa [← hs] at this
      exact moved.offer (by rw [slotOf_val (below.trans_le eight)]; exact below)
    · rw [Lane.lock_misframes hs hm]; exact h.misframe

theorem Lane.Law.arrive (h : r.Law) : (r.arrive needed l w marker).1.Law := by
  by_cases hs : r.state = .off
  · rw [Lane.arrive_off hs]; exact h
  · rw [Lane.arrive_on hs]; exact h.counted.lock

end

/-- The head gone; a FIFO that it leaves empty clears the latch (R56). -/
theorem Lane.Law.popHead {r : Lane} (h : r.Law) : r.popHead.Law :=
  ⟨h.count, h.outside, h.check, h.locked, h.gaps, fun hl he => by simp [Lane.popHead] at hl he; exact hl.2 he⟩

theorem Lane.configure_law (r : Lane) (enable : Bool) {m : Nat} (h : 1 ≤ m ∧ m ≤ 8) : (r.configure enable m).Law where
  count := h
  outside _ := rfl
  check := by cases enable <;> exact (nomatch ·)
  locked := by cases enable <;> exact (nomatch ·)
  gaps := ⟨List.Pairwise.nil, by simp [Lane.configure]⟩
  latched := (nomatch ·)

theorem Lane.reset_law : Lane.reset.Law where
  count := by decide
  outside _ := rfl
  check := (nomatch ·)
  locked := (nomatch ·)
  gaps := ⟨List.Pairwise.nil, by simp [Lane.reset]⟩
  latched := (nomatch ·)

/-- Every change of a lane record keeps the lane law. -/
theorem Lane.Change.law {r r' : Lane} (h : r.Change r') (hl : r.Law) : r'.Law := by
  cases h with
  | arrive => exact hl.arrive
  | pop => exact hl.popHead
  | configure enable hm => exact r.configure_law enable hm
  | clear => exact ⟨hl.count, hl.outside, hl.check, hl.locked, hl.gaps, hl.latched⟩
  | reset => exact Lane.reset_law

/-! ## The bound of a FIFO (R55) -/

section
variable {r : Lane} {needed : SlotId → Bool} {l : LaneId} {w : Sample} {marker : Bool}

theorem Lane.offer_fifo_le {p : SlotId} (h : r.fifo.length ≤ 32) : (r.offer needed l p w).1.fifo.length ≤ 32 := by
  cases hn : needed p with
  | false => rw [Lane.offer_unneeded hn]; exact h
  | true =>
    by_cases hr : r.fifo.length < 32
    · rw [Lane.offer_admits hn hr, List.length_append]; exact hr
    · rw [Lane.offer_overruns hn (not_lt.1 hr)]; exact h

/-- Only an offered word enters the FIFO. -/
theorem Lane.lock_fifo_le (h : r.fifo.length ≤ 32) : (r.lock needed l w marker).1.fifo.length ≤ 32 := by
  cases hs : r.state with
  | off => rw [Lane.lock_off hs]; exact h
  | hunt => rw [Lane.lock_hunt hs]; cases marker <;> exact h
  | check =>
    by_cases hp : r.position < r.slotCount
    · rw [Lane.lock_check_below hs hp]; cases marker <;> exact h
    · cases marker with
      | true => rw [Lane.lock_check_locks hs hp]; exact Lane.offer_fifo_le h
      | false => rw [Lane.lock_check_misses hs hp]; exact h
  | locked =>
    by_cases hm : marker = decide (r.position = 0)
    · rw [Lane.lock_inPlace hs hm]; exact Lane.offer_fifo_le h
    · rw [Lane.lock_misframes hs hm, Lane.misframe_eq]; exact h

end

/-- Every change of a lane record keeps its FIFO within 32 entries. -/
theorem Lane.Change.fifo_le {r r' : Lane} (h : r.Change r') (hr : r.fifo.length ≤ 32) : r'.fifo.length ≤ 32 := by
  cases h with
  | arrive needed l w marker =>
    by_cases hs : r.state = .off
    · rw [Lane.arrive_off hs]; exact hr
    · rw [Lane.arrive_on hs]; exact Lane.lock_fifo_le (r := r.counted) hr
  | pop => exact (List.tail_sublist _).length_le.trans hr
  | configure => exact Nat.zero_le _
  | clear => exact hr
  | reset => exact Nat.zero_le _

theorem Lane.Changes.law {r r' : Lane} (h : r.Changes r') : r.Law → r'.Law :=
  keeps_of_reflTransGen (P := Lane.Law) (fun _ _ => Lane.Change.law) h

theorem Lane.Changes.fifo_le {r r' : Lane} (h : r.Changes r') : r.fifo.length ≤ 32 → r'.fifo.length ≤ 32 :=
  keeps_of_reflTransGen (P := fun r => r.fifo.length ≤ 32) (fun _ _ => Lane.Change.fifo_le) h

/-! ## Changes of the link controller -/

/-- Nothing that the bounds and the link law speak of differs. -/
structure Link.Same (k k' : Link) : Prop where
  gap       : k'.gapTimeout = k.gapTimeout := by rfl
  assembler : k'.assembler = k.assembler := by rfl
  timer     : k'.gapTimer = k.gapTimer := by rfl
  inbound   : k'.inbound = k.inbound := by rfl
  replies   : k'.replies = k.replies := by rfl

/-- A LINK_SET reply that will take effect carries values in their ranges (R139). -/
def Reply.InRange (r : Reply) : Prop :=
  r.type = Command.code .linkSet → r.status = .ok →
    (byteAt r.body 0).toNat ≤ 5 ∧ 1 ≤ (byteAt r.body 1).toNat ∧ (byteAt r.body 1).toNat ≤ 50

/-- A frame in assembly that may follow in `k`: its LEN is legal, or that of the frame in assembly already; and it is
not complete (R129). -/
def Link.MayAssemble (k : Link) (a : Assembler) : Prop :=
  a ≠ .seek ∧ ∀ len l, a = .body len l →
    (2 ≤ len.toNat ∧ len.toNat ≤ 250 ∨ ∃ l', k.assembler = .body len l') ∧ l.length < len.toNat + 2

/-- What an event can make of the link controller. -/
inductive Link.Change : Link → Link → Prop
  | same {k k' : Link} (h : k.Same k') : Change k k'
  | seek (k : Link) : Change k k.toSeek
  | assemble {k : Link} (a : Assembler) (h : k.MayAssemble a) : Change k { k.startGap with assembler := a }
  | enqueue {k : Link} (f : Frame) (h : k.inbound.length < 4) : Change k { k with inbound := k.inbound ++ [f] }
  | take (k : Link) : Change k { k with inbound := k.inbound.tail }
  | reply {k : Link} (r : Reply) (h : k.replies.length < 8) (hr : r.InRange) :
      Change k { k with replies := k.replies ++ [r] }
  | sent {k : Link} {r : Reply} {rest : List Reply} (h : k.replies = r :: rest) : Change k { k with replies := rest }
  /-- A LINK_SET reply sent, whose gap timeout is then in force (R140). -/
  | retime {k : Link} {r : Reply} {rest : List Reply} (h : k.replies = r :: rest)
      (ht : r.type = Command.code .linkSet) (hs : r.status = .ok) :
      Change k { k with replies := rest, gapTimeout := (byteAt r.body 1).toNat }
  | clear (k : Link) : Change k { k with inbound := [], replies := [] }
  | reset (k : Link) : Change k .reset

/-- A sequence of changes of the link controller. -/
def Link.Changes : Link → Link → Prop := Relation.ReflTransGen Link.Change

theorem Link.Change.changes {k k' : Link} (h : k.Change k') : k.Changes k' := Relation.ReflTransGen.single h

theorem Link.Changes.of_eq {k k' : Link} (h : k' = k) : k.Changes k' := h ▸ Relation.ReflTransGen.refl

theorem Link.Changes.trans {k k' k'' : Link} (h : k.Changes k') (h' : k'.Changes k'') : k.Changes k'' :=
  Relation.ReflTransGen.trans h h'

/-- A change and then others. -/
theorem Link.Change.andThen {k k' k'' : Link} (h : k.Change k') (h' : k'.Changes k'') : k.Changes k'' :=
  h.changes.trans h'

theorem Link.Same.changes {k k' : Link} (h : k.Same k') : k.Changes k' := (Link.Change.same h).changes

/-! ## The link law (R129, R130, R139) and the bounds of the two queues (R135, R137) -/

/-- The link law, of one link record. -/
structure Link.Law (k : Link) : Prop where
  gap    : 1 ≤ k.gapTimeout ∧ k.gapTimeout ≤ 50
  values : ∀ r ∈ k.replies, r.InRange
  timer  : k.gapTimer = .stopped ↔ k.assembler = .seek
  body   : ∀ len l, k.assembler = .body len l → 2 ≤ len.toNat ∧ len.toNat ≤ 250 ∧ l.length < len.toNat + 2

theorem State.linkLaw_iff {s : State} : s.LinkLaw ↔ s.link.Law :=
  ⟨fun h => ⟨h.gap, h.values, h.timer, h.body⟩, fun h => ⟨h.gap, h.values, h.timer, h.body⟩⟩

theorem Link.Law.of_same {k k' : Link} (hl : k.Law) (h : k.Same k') : k'.Law where
  gap := h.gap ▸ hl.gap
  values := h.replies ▸ hl.values
  timer := by rw [h.timer, h.assembler]; exact hl.timer
  body := h.assembler ▸ hl.body

theorem Link.Law.startGap {k : Link} (hl : k.Law) {a : Assembler} (h : k.MayAssemble a) :
    Link.Law { k.startGap with assembler := a } where
  gap := hl.gap
  values := hl.values
  timer := ⟨(nomatch ·), fun e => absurd e h.1⟩
  body len l e := by
    obtain ⟨legal, short⟩ := h.2 len l e
    rcases legal with legal | ⟨l', hk⟩
    · exact ⟨legal.1, legal.2, short⟩
    · obtain ⟨low, high, -⟩ := hl.body len l' hk
      exact ⟨low, high, short⟩

/-- Every change of the link controller keeps the link law. -/
theorem Link.Change.law {k k' : Link} (h : k.Change k') (hl : k.Law) : k'.Law := by
  cases h with
  | same h => exact hl.of_same h
  | seek => exact ⟨hl.gap, hl.values, iff_of_true rfl rfl, fun _ _ e => nomatch e⟩
  | assemble a h => exact hl.startGap h
  | enqueue f => exact ⟨hl.gap, hl.values, hl.timer, hl.body⟩
  | take => exact ⟨hl.gap, hl.values, hl.timer, hl.body⟩
  | reply r _ hr =>
    refine ⟨hl.gap, fun x hx => ?_, hl.timer, hl.body⟩
    rcases List.mem_append.1 hx with hx | hx
    · exact hl.values x hx
    · exact List.mem_singleton.1 hx ▸ hr
  | sent h => exact ⟨hl.gap, fun x hx => hl.values x (h ▸ List.mem_cons_of_mem _ hx), hl.timer, hl.body⟩
  | @retime r rest h ht hs =>
    have inRange := hl.values r (h ▸ List.mem_cons_self) ht hs
    exact ⟨inRange.2, fun x hx => hl.values x (h ▸ List.mem_cons_of_mem _ hx), hl.timer, hl.body⟩
  | clear => exact ⟨hl.gap, fun _ hx => absurd hx List.not_mem_nil, hl.timer, hl.body⟩
  | reset =>
    exact ⟨by decide, fun _ hx => absurd hx List.not_mem_nil, iff_of_true rfl rfl, fun _ _ e => nomatch e⟩

/-- The inbound queue holds at most 4 frames and the reply queue at most 8. -/
def Link.Bounded (k : Link) : Prop := k.inbound.length ≤ 4 ∧ k.replies.length ≤ 8

/-- Every change of the link controller keeps the inbound queue within 4 frames and the reply queue within 8. -/
theorem Link.Change.bounded {k k' : Link} (h : k.Change k') (hb : k.Bounded) : k'.Bounded := by
  obtain ⟨inbound, replies⟩ := hb
  cases h with
  | same h => exact ⟨h.inbound ▸ inbound, h.replies ▸ replies⟩
  | seek => exact ⟨inbound, replies⟩
  | assemble => exact ⟨inbound, replies⟩
  | enqueue f h => exact ⟨by rw [List.length_append]; exact h, replies⟩
  | take => exact ⟨(List.tail_sublist _).length_le.trans inbound, replies⟩
  | reply r h => exact ⟨inbound, by rw [List.length_append]; exact h⟩
  | sent h => rw [h] at replies; exact ⟨inbound, Nat.le_of_succ_le replies⟩
  | retime h => rw [h] at replies; exact ⟨inbound, Nat.le_of_succ_le replies⟩
  | clear => exact ⟨Nat.zero_le _, Nat.zero_le _⟩
  | reset => exact ⟨Nat.zero_le _, Nat.zero_le _⟩

theorem Link.Changes.law {k k' : Link} (h : k.Changes k') : k.Law → k'.Law :=
  keeps_of_reflTransGen (P := Link.Law) (fun _ _ => Link.Change.law) h

theorem Link.Changes.bounded {k k' : Link} (h : k.Changes k') : k.Bounded → k'.Bounded :=
  keeps_of_reflTransGen (P := Link.Bounded) (fun _ _ => Link.Change.bounded) h

end Sys2Proof.Machine
end

section
/-! PROOFS. What every operation and every command does to the lanes, the link controller and the notice queue; and
from it that a step keeps the bounds of the queues, the link law and the lane law (O51, O57). -/

namespace Sys2Proof.Machine

/-! ## The edges of the part -/

/-- Lane records, link controller and notice queue are as they were, but for a notice that may have left. -/
structure State.Inner (s t : State) : Prop where
  link    : t.link = s.link := by simp
  lanes   : t.lanes = s.lanes := by simp
  notices : t.arbiter.notices.length ≤ s.arbiter.notices.length := by simp

/-- What an event does to the lane records, the link controller and the notice queue. -/
structure State.Edges (s t : State) : Prop where
  link    : s.link.Changes t.link
  lanes   : ∀ l, (s.lane l).Changes (t.lane l)
  notices : s.arbiter.notices.length ≤ 16 → t.arbiter.notices.length ≤ 16

theorem State.Edges.trans {s t u : State} (h : s.Edges t) (h' : t.Edges u) : s.Edges u :=
  ⟨h.link.trans h'.link, fun l => (h.lanes l).trans (h'.lanes l), fun hn => h'.notices (h.notices hn)⟩

/-- Two parts of an event, the last of them given first. -/
theorem State.Edges.after {s t u : State} (h : t.Edges u) (h' : s.Edges t) : s.Edges u := h'.trans h

theorem State.Inner.edges {s t : State} (h : s.Inner t) : s.Edges t :=
  ⟨.of_eq h.link, fun l => .of_eq (by rw [State.lane, State.lane, h.lanes]), h.notices.trans⟩

theorem State.Inner.trans {s t u : State} (h : s.Inner t) (h' : t.Inner u) : s.Inner u :=
  ⟨h'.link.trans h.link, h'.lanes.trans h.lanes, h'.notices.trans h.notices⟩

theorem State.Inner.refl (s : State) : s.Inner s where

theorem State.Edges.refl (s : State) : s.Edges s := (State.Inner.refl s).edges

theorem State.modLink_edges {s : State} {f : Link → Link} (h : s.link.Changes (f s.link)) : s.Edges (s.modLink f) :=
  ⟨h, fun _ => .of_eq rfl, id⟩

/-- The link controller replaced, and nothing raised. -/
theorem State.modLink_silent {s : State} {f : Link → Link} (h : s.link.Changes (f s.link)) :
    s.Edges (s.modLink f, ([] : List Notice)).1 := State.modLink_edges h

theorem State.modLane_edges {s : State} {l : LaneId} {f : Lane → Lane} (h : (s.lane l).Change (f (s.lane l))) :
    s.Edges (s.modLane l f) where
  link := .of_eq rfl
  lanes j := by
    rw [State.modLane_lane]
    split
    · next e => rw [e]; exact h.changes
    · exact .of_eq rfl
  notices := id

theorem State.raiseAll_edges (s : State) (ns : List Notice) : s.Edges (s.raiseAll ns) :=
  ⟨.of_eq (by simp), fun l => .of_eq (by simp), (s.raiseAll_arbiter ns).2.2⟩

/-- Notices of an operation that leaves the edges alone. -/
theorem State.Inner.settle {s : State} {r : Raising} (h : s.Inner r.1) : s.Edges r.settle :=
  h.edges.trans (State.raiseAll_edges _ _)

theorem State.resetBlocks_edges (s : State) : s.Edges s.resetBlocks :=
  ⟨.of_eq rfl, fun l => by rw [State.resetBlocks_lane]; exact (Lane.Change.reset _).changes, fun _ => Nat.zero_le _⟩

/-! ## The link controller's own events -/

/-- The assembler back in SEEK, and the queues empty. -/
theorem Link.clear_changes {k k' : Link} (h : Link.Same { k.toSeek with inbound := [], replies := [] } k') :
    k.Changes k' :=
  (Link.Change.seek k).andThen ((Link.Change.clear _).andThen h.changes)

theorem Link.truncate_changes (k : Link) : k.Changes k.truncate :=
  (Link.Change.seek k).andThen (Link.Same.changes {})

theorem State.performDeviceReset_edges (s : State) : s.Edges s.performDeviceReset :=
  s.resetBlocks_edges.trans (State.modLink_edges (Link.clear_changes {}))

theorem State.performPowerReset_edges (s : State) (cause : ResetCause) (hrxSpace : Bool) :
    s.Edges (s.performPowerReset cause hrxSpace) :=
  s.resetBlocks_edges.trans (State.modLink_edges ((Link.Change.reset _).andThen (Link.Same.changes {})))

theorem Link.enqueue_changes (k : Link) (f : Frame) : k.Changes (k.enqueue f) := by
  unfold Link.enqueue
  split
  · next h => exact (Link.Change.enqueue f h).changes
  · exact Link.Same.changes {}

theorem State.acknowledge_inner (s : State) (c : ChanId) (q : Byte) : s.Inner (s.acknowledge c q).1 where

theorem State.checkFrame_edges (s : State) (len : Byte) (body : List Byte) :
    s.Edges (s.checkFrame len body).1 := by
  unfold State.checkFrame State.route
  dsimp only
  split
  · split
    · split
      · exact (s.acknowledge_inner _ _).edges
      · exact State.modLink_silent (Link.Same.changes {})
    · exact State.modLink_silent (s.link.enqueue_changes _)
  · exact State.modLink_silent (Link.Same.changes {})

/-- A byte taken: the assembler moves on, or a complete frame is checked (R129, R133). -/
theorem State.takeByte_edges (s : State) (b : Byte) : s.Edges (s.takeByte b).1 := by
  unfold State.takeByte
  split
  · split
    · exact State.modLink_silent (Link.Change.assemble .length ⟨(nomatch ·), fun _ _ e => nomatch e⟩).changes
    · exact .refl s
  · split
    · next h =>
      refine State.modLink_silent (Link.Change.assemble (.body b []) ⟨(nomatch ·), fun len l e => ?_⟩).changes
      obtain ⟨rfl, rfl⟩ := Assembler.body.inj e
      exact ⟨.inl h, Nat.succ_pos _⟩
    · exact State.modLink_silent s.link.truncate_changes
  · next len collected hk =>
    dsimp only
    split
    · next h =>
      refine State.modLink_silent (Link.Change.assemble (.body len _) ⟨(nomatch ·), fun len' l e => ?_⟩).changes
      obtain ⟨rfl, rfl⟩ := Assembler.body.inj e
      exact ⟨.inr ⟨collected, hk⟩, h⟩
    · exact (State.modLink_edges (Link.Change.seek _).changes).trans (State.checkFrame_edges _ _ _)

theorem Link.abandonFrame_changes (k : Link) : k.Changes k.abandonFrame := by
  have discarded : k.Changes k.toSeek.discardFrame := (Link.Change.seek k).andThen (Link.Same.changes {})
  unfold Link.abandonFrame
  split
  · exact .of_eq rfl
  · exact discarded
  · exact discarded

theorem Link.hrxToSpace_same (k : Link) : k.Same k.hrxToSpace := by
  unfold Link.hrxToSpace
  split <;> exact {}

/-! ## Replies sent (R119, R140, R143) -/

/-- A new rate and gap timeout, once the reply that brings them has left its queue (R140, R141). -/
theorem Link.applyRate_changes {k : Link} {r : Reply} {rest : List Reply} (h : k.replies = r :: rest)
    (ht : r.type = Command.code .linkSet) (hs : r.status = .ok) (rate : Fin 6) :
    k.Changes (Link.applyRate { k with replies := rest } rate (byteAt r.body 1).toNat) := by
  refine (Link.Change.retime h ht hs).andThen ?_
  have cut (k : Link) {k' : Link} (same : k.toSeek.Same k') : k.Changes k' :=
    (Link.Change.seek k).andThen same.changes
  unfold Link.applyRate
  dsimp only
  split
  · exact Link.Same.changes {}
  · split
    · exact Link.Same.changes {}
    · exact cut _ {}
    · exact cut _ {}

theorem State.replySent_edges (s : State) : s.Edges s.replySent := by
  unfold State.replySent
  split
  · next r rest h =>
    have sent : s.Edges (s.modLink fun k => { k with replies := rest }) :=
      State.modLink_edges (Link.Change.sent h).changes
    unfold State.replyEffect
    split
    · next e =>
      split
      · next rate _ => exact ⟨Link.applyRate_changes h e.1 e.2 rate, sent.lanes, sent.notices⟩
      · exact sent
    · split
      · exact sent.trans (State.performDeviceReset_edges _)
      · exact sent
  · exact .refl s

theorem State.batchSent_inner (s : State) (c : ChanId) (b : BatchId) : s.Inner (s.batchSent c b).1 where

theorem State.sent_edges (s : State) (src : Source) : s.Edges (s.sent src).1 := by
  unfold State.sent
  split
  · exact State.modLink_silent (Link.Same.changes {})
  · exact s.replySent_edges
  · exact State.Inner.edges {}
  · exact .refl s
  · exact (s.batchSent_inner _ _).edges
  · exact (s.batchSent_inner _ _).edges

/-! ## The transmit arbiter -/

theorem State.transmit_inner (s : State) (src : Source) (f : Frame) : s.Inner (s.transmit src f) where
  notices := le_rfl

/-- The head notice leaves its queue (R122). -/
theorem State.startNotice_inner (s : State) : s.Inner s.startNotice where
  notices := by
    unfold State.startNotice
    split
    · exact le_rfl
    · next n rest h => rw [h]; exact Nat.le_succ _

theorem State.startFrom_inner (s : State) (src : Source) : s.Inner (s.startFrom src) := by
  unfold State.startFrom
  split
  · exact s.transmit_inner _ _
  · split
    · exact s.transmit_inner _ _
    · exact .refl s
  · exact s.transmit_inner _ _
  · exact s.startNotice_inner
  · exact { notices := le_rfl }
  · exact { notices := le_rfl }

theorem State.freeTransmitter_inner (s : State) : s.Inner s.freeTransmitter := ⟨rfl, rfl, le_rfl⟩

theorem State.abandonTransmission_inner (s : State) : s.Inner s.abandonTransmission := by
  unfold State.abandonTransmission
  split
  · exact .refl s
  · refine s.freeTransmitter_inner.trans ?_
    unfold State.abandon
    split
    · exact .refl _
    · exact .refl _
    · exact .refl _
    · exact {}
    · exact {}
    · exact {}

theorem State.performLinkReset_edges (s : State) : s.Edges s.performLinkReset :=
  s.abandonTransmission_inner.edges.trans (State.modLink_edges (Link.clear_changes {}))

/-! ## The sum engine and the stops -/

/-- A sample taken from the FIFO of its lane (R65). -/
theorem State.startDispatch_edges (s : State) (l : LaneId) (x : FifoEntry) : s.Edges (s.startDispatch l x) where
  link := .of_eq (by simp)
  lanes j := by
    have popped : s.Edges (s.modLane l Lane.popHead) := State.modLane_edges (.pop _)
    have lane : (s.startDispatch l x).lane j = (s.modLane l Lane.popHead).lane j :=
      State.setHolds_lane (s.modLane l Lane.popHead) (s.snapshot l x.slot) true j
    exact lane ▸ popped.lanes j
  notices h := by simpa using h

theorem State.complete_edges (s : State) (d : Dispatch) (choice : CompletionChoice) :
    s.Edges (s.complete d choice) :=
  .after (State.raiseAll_edges _ _) (State.Inner.edges {})

theorem State.takeStopRequest_inner (s : State) : s.Inner s.takeStopRequest.1 := by
  unfold State.takeStopRequest
  split
  · exact .refl s
  · split
    · exact {}
    · exact {}

/-! ## The owners of the commands -/

/-- What the owner of command `c` does to the edges, and what a LINK_SET that it accepts carries back. -/
structure Answer.Outer (c : Command) (s : State) (a : Answer) : Prop where
  link    : s.link.Same a.state.link
  lanes   : ∀ l, (s.lane l).Changes (a.state.lane l)
  notices : a.state.arbiter.notices.length ≤ s.arbiter.notices.length
  values  : c = .linkSet → a.status = .ok →
    (byteAt a.body 0).toNat ≤ 5 ∧ 1 ≤ (byteAt a.body 1).toNat ∧ (byteAt a.body 1).toNat ≤ 50

/-- An owner other than that of LINK_SET that leaves the edges alone. -/
theorem State.Inner.outer {c : Command} {s : State} {a : Answer} (h : s.Inner a.state) (hc : c ≠ .linkSet) :
    a.Outer c s where
  link := by rw [h.link]; exact {}
  lanes l := .of_eq (by rw [State.lane, State.lane, h.lanes])
  notices := h.notices
  values e := absurd e hc

theorem linkSetOwner_outer (p : List Byte) (s : State) : (linkSetOwner p s).Outer .linkSet s := by
  unfold linkSetOwner
  split
  · next h => exact ⟨{}, fun _ => .of_eq rfl, le_rfl, fun _ _ => h⟩
  · exact ⟨{}, fun _ => .of_eq rfl, le_rfl, fun _ => (nomatch ·)⟩

theorem deviceResetOwner_outer (s : State) : (deviceResetOwner s).Outer .deviceReset s :=
  ⟨{}, fun _ => .of_eq rfl, le_rfl, (nomatch ·)⟩

theorem deviceQueryOwner_outer (p : List Byte) (s : State) : (deviceQueryOwner p s).Outer .deviceQuery s := by
  unfold deviceQueryOwner
  split <;> exact ⟨{}, fun _ => .of_eq rfl, le_rfl, (nomatch ·)⟩

/-- A lane record replaced by the owner of a lane command. -/
theorem State.modLane_outer {c : Command} {s : State} {l : LaneId} {f : Lane → Lane} {st : Status}
    {body : List Byte} (h : (s.lane l).Change (f (s.lane l))) (hc : c ≠ .linkSet) :
    Answer.Outer c s ⟨s.modLane l f, st, body, []⟩ :=
  ⟨{}, (State.modLane_edges h).lanes, le_rfl, fun e => absurd e hc⟩

theorem laneSetOwner_outer (p : List Byte) (s : State) : (laneSetOwner p s).Outer .laneSet s := by
  have refused (st : Status) : (Answer.refuse .laneSet st s).Outer .laneSet s :=
    (State.Inner.refl s).outer (nomatch ·)
  unfold laneSetOwner
  split
  · exact refused _
  · split
    · exact refused _
    · split
      · exact refused _
      · next enable _ =>
        dsimp only
        split
        · next hm => exact State.modLane_outer (.configure _ enable hm) (nomatch ·)
        · exact refused _

theorem laneQueryOwner_outer (p : List Byte) (s : State) : (laneQueryOwner p s).Outer .laneQuery s := by
  unfold laneQueryOwner
  split
  · exact (State.Inner.refl s).outer (nomatch ·)
  · split
    · exact State.modLane_outer (.clear _) (nomatch ·)
    · exact (State.Inner.refl s).outer (nomatch ·)

/-! ### The owners that leave the edges alone -/

@[simp] theorem Answer.refuse_state (c : Command) (st : Status) (s : State) : (Answer.refuse c st s).state = s := rfl

@[simp] theorem Arbiter.toHead_notices (a : Arbiter) (c : ChanId) (k : ClassId) :
    (a.toHead c k).notices = a.notices := rfl

@[simp] theorem Arbiter.changeClass_notices (a : Arbiter) (c : ChanId) (old new : ClassId) :
    (a.changeClass c old new).notices = a.notices := by
  unfold Arbiter.changeClass
  split <;> rfl

@[simp] theorem State.configure_notices (s : State) (c : ChanId) (g : ChanConfig) :
    (s.configure c g).arbiter.notices = s.arbiter.notices := by simp [State.configure]

@[simp] theorem State.clearChannel_notices (s : State) (c : ChanId) :
    (s.clearChannel c).arbiter.notices = s.arbiter.notices := by simp [State.clearChannel]

theorem pingOwner_inner (p : List Byte) (s : State) : s.Inner (pingOwner p s).state := .refl s

theorem bankOpenOwner_inner (p : List Byte) (s : State) : s.Inner (bankOpenOwner p s).state := by
  unfold bankOpenOwner
  dsimp only
  repeat' split
  all_goals exact {}

theorem bankDataOwner_inner (p : List Byte) (s : State) : s.Inner (bankDataOwner p s).state := by
  unfold bankDataOwner
  dsimp only
  repeat' split
  all_goals exact {}

theorem bankSealOwner_inner (p : List Byte) (us : List (Fin 256 × Sample)) (s : State) : s.Inner (bankSealOwner p us s).state := by
  unfold bankSealOwner
  dsimp only
  repeat' split
  all_goals exact {}

theorem bankFreeOwner_inner (p : List Byte) (s : State) : s.Inner (bankFreeOwner p s).state := by
  unfold bankFreeOwner
  repeat' split
  all_goals exact {}

theorem bankQueryOwner_inner (p : List Byte) (s : State) : s.Inner (bankQueryOwner p s).state := by
  unfold bankQueryOwner
  repeat' split
  all_goals exact {}

theorem chanConfigOwner_inner (p : List Byte) (s : State) : s.Inner (chanConfigOwner p s).state := by
  unfold chanConfigOwner
  repeat' split
  all_goals exact {}

theorem chanBindOwner_inner (p : List Byte) (s : State) : s.Inner (chanBindOwner p s).state := by
  unfold chanBindOwner
  repeat' split
  all_goals exact {}

theorem chanStartOwner_inner (p : List Byte) (s : State) : s.Inner (chanStartOwner p s).state := by
  unfold chanStartOwner
  repeat' split
  all_goals exact {}

theorem chanStopOwner_inner (tag : Byte) (p : List Byte) (s : State) : s.Inner (chanStopOwner tag p s).state := by
  unfold chanStopOwner
  repeat' split
  all_goals exact {}

theorem chanAbortOwner_inner (p : List Byte) (s : State) : s.Inner (chanAbortOwner p s).state := by
  unfold chanAbortOwner
  repeat' split
  all_goals exact {}

theorem chanClearOwner_inner (p : List Byte) (s : State) : s.Inner (chanClearOwner p s).state := by
  unfold chanClearOwner
  repeat' split
  all_goals exact {}

theorem chanSwapOwner_inner (tag : Byte) (p : List Byte) (s : State) : s.Inner (chanSwapOwner tag p s).state := by
  unfold chanSwapOwner
  repeat' split
  all_goals exact {}

theorem chanQueryOwner_inner (p : List Byte) (s : State) : s.Inner (chanQueryOwner p s).state := by
  unfold chanQueryOwner
  repeat' split
  all_goals exact {}

theorem chanRotateOwner_inner (p : List Byte) (s : State) : s.Inner (chanRotateOwner p s).state := by
  unfold chanRotateOwner
  repeat' split
  all_goals exact {}

theorem watchSetOwner_inner (p : List Byte) (s : State) : s.Inner (watchSetOwner p s).state := by
  unfold watchSetOwner
  repeat' split
  all_goals exact {}

theorem watchOffOwner_inner (p : List Byte) (s : State) : s.Inner (watchOffOwner p s).state := by
  unfold watchOffOwner
  repeat' split
  all_goals exact {}

theorem watchQueryOwner_inner (p : List Byte) (s : State) : s.Inner (watchQueryOwner p s).state := by
  unfold watchQueryOwner
  repeat' split
  all_goals exact {}

/-! ## Every command -/

/-- The code of a command is that of LINK_SET only for LINK_SET. -/
theorem Command.eq_linkSet_of_code {c : Command} (h : c.code = Command.code .linkSet) : c = .linkSet := by
  revert h
  cases c <;> decide

/-- A row that takes a frame is the taking of it by an owner that leaves the edges but for lane records, or
BAD_TYPE. -/
theorem exec_taking_outer {i : Instr} {f : Frame} (h : takenFrame i = some f) :
    (∃ (c : Command) (owner : State → Answer), (∀ s, (owner s).Outer c s) ∧
      ∀ s, exec i s = .next (s.take c f.tag f.payload owner)) ∨
    i = .badType f.type f.tag f.payload := by
  have inner (c : Command) (hc : c ≠ .linkSet) {owner : State → Answer} (ho : ∀ s : State, s.Inner (owner s).state)
      (hi : ∀ s, exec i s = .next (s.take c f.tag f.payload owner)) :
      (∃ (c : Command) (owner : State → Answer), (∀ s, (owner s).Outer c s) ∧
        ∀ s, exec i s = .next (s.take c f.tag f.payload owner)) ∨
      i = .badType f.type f.tag f.payload :=
    .inl ⟨c, owner, fun s => (ho s).outer hc, hi⟩
  cases i with
  | linkSet tag p => cases h; exact .inl ⟨.linkSet, linkSetOwner p, linkSetOwner_outer p, fun _ => rfl⟩
  | deviceReset tag p =>
    cases h; exact .inl ⟨.deviceReset, deviceResetOwner, deviceResetOwner_outer, fun _ => rfl⟩
  | deviceQuery tag p =>
    cases h; exact .inl ⟨.deviceQuery, deviceQueryOwner p, deviceQueryOwner_outer p, fun _ => rfl⟩
  | laneSet tag p => cases h; exact .inl ⟨.laneSet, laneSetOwner p, laneSetOwner_outer p, fun _ => rfl⟩
  | laneQuery tag p => cases h; exact .inl ⟨.laneQuery, laneQueryOwner p, laneQueryOwner_outer p, fun _ => rfl⟩
  | ping tag p => cases h; exact inner .ping (nomatch ·) (pingOwner_inner p) fun _ => rfl
  | bankOpen tag p => cases h; exact inner .bankOpen (nomatch ·) (bankOpenOwner_inner p) fun _ => rfl
  | bankData tag p => cases h; exact inner .bankData (nomatch ·) (bankDataOwner_inner p) fun _ => rfl
  | bankSeal tag p us => cases h; exact inner .bankSeal (nomatch ·) (bankSealOwner_inner p us) fun _ => rfl
  | bankFree tag p => cases h; exact inner .bankFree (nomatch ·) (bankFreeOwner_inner p) fun _ => rfl
  | bankQuery tag p => cases h; exact inner .bankQuery (nomatch ·) (bankQueryOwner_inner p) fun _ => rfl
  | chanConfig tag p => cases h; exact inner .chanConfig (nomatch ·) (chanConfigOwner_inner p) fun _ => rfl
  | chanBind tag p => cases h; exact inner .chanBind (nomatch ·) (chanBindOwner_inner p) fun _ => rfl
  | chanStart tag p => cases h; exact inner .chanStart (nomatch ·) (chanStartOwner_inner p) fun _ => rfl
  | chanStop tag p => cases h; exact inner .chanStop (nomatch ·) (chanStopOwner_inner tag p) fun _ => rfl
  | chanAbort tag p => cases h; exact inner .chanAbort (nomatch ·) (chanAbortOwner_inner p) fun _ => rfl
  | chanClear tag p => cases h; exact inner .chanClear (nomatch ·) (chanClearOwner_inner p) fun _ => rfl
  | chanSwap tag p => cases h; exact inner .chanSwap (nomatch ·) (chanSwapOwner_inner tag p) fun _ => rfl
  | chanQuery tag p => cases h; exact inner .chanQuery (nomatch ·) (chanQueryOwner_inner p) fun _ => rfl
  | chanRotate tag p => cases h; exact inner .chanRotate (nomatch ·) (chanRotateOwner_inner p) fun _ => rfl
  | watchSet tag p => cases h; exact inner .watchSet (nomatch ·) (watchSetOwner_inner p) fun _ => rfl
  | watchOff tag p => cases h; exact inner .watchOff (nomatch ·) (watchOffOwner_inner p) fun _ => rfl
  | watchQuery tag p => cases h; exact inner .watchQuery (nomatch ·) (watchQueryOwner_inner p) fun _ => rfl
  | badType type tag p => cases h; exact .inr rfl
  | _ => exact nomatch h

/-- The frame at the head leaves its queue (R136). -/
theorem State.popInbound_edges (s : State) : s.Edges s.popInbound :=
  State.modLink_edges (Link.Change.take _).changes

/-- A reply queued with room for it (R137). -/
theorem State.queueReply_edges (s : State) (tag type : Byte) (status : Status) (body : List Byte)
    (room : s.link.replies.length < 8) (values : Reply.InRange ⟨tag, type, status, body, s.link.rxDiscards⟩) :
    s.Edges (s.queueReply tag type status body) :=
  State.modLink_edges ((Link.Change.reply _ room values).andThen (Link.Same.changes {}))

theorem State.take_edges (s : State) {c : Command} (tag : Byte) (p : List Byte) {owner : State → Answer}
    (ho : ∀ s, (owner s).Outer c s) : s.Edges (s.take c tag p owner) := by
  by_cases ht : s.Takes ⟨c.code, tag, p⟩
  · have outer : (s.popInbound.judgeCommand c p owner).Outer c s.popInbound := by
      have untouched (st : Status) (body : List Byte) (h : st ≠ .ok) :
          Answer.Outer c s.popInbound ⟨s.popInbound, st, body, []⟩ :=
        ⟨{}, fun _ => .of_eq rfl, le_rfl, fun _ e => absurd e h⟩
      unfold State.judgeCommand
      split
      · exact untouched _ _ (nomatch ·)
      · split
        · exact untouched _ _ (nomatch ·)
        · exact ho _
    rw [State.take_judged ht]
    generalize s.popInbound.judgeCommand c p owner = a at outer
    have answered : s.Edges a.state :=
      s.popInbound_edges.trans ⟨outer.link.changes, outer.lanes, outer.notices.trans⟩
    refine (answered.trans (State.raiseAll_edges _ a.raised)).trans
      (State.queueReply_edges _ _ _ _ _ ?_ fun ht hs => ?_)
    · rw [State.raiseAll_link, outer.link.replies]; exact ht.room
    · exact outer.values (Command.eq_linkSet_of_code ht) hs
  · rw [State.take_waits ht]; exact .refl s

/-- The command's effect on the edges: the lane records, the link controller and the notice queue. -/
theorem exec_edges (i : Instr) (s : State) : ∃ t, exec i s = .next t ∧ s.Edges t := by
  cases hf : takenFrame i with
  | some f =>
    rcases exec_taking_outer hf with ⟨c, owner, outer, h⟩ | h
    · exact ⟨_, h s, s.take_edges _ _ outer⟩
    · rw [h]
      refine ⟨_, rfl, ?_⟩
      split
      · next hb =>
        have takes := (s.canTake_iff _).1 (Bool.and_eq_true_iff.1 hb).1
        exact s.popInbound_edges.trans (State.queueReply_edges _ _ _ _ _ takes.room fun _ => (nomatch ·))
      · exact .refl s
  | none =>
    cases i with
    | powerReset hrx => exact ⟨_, rfl, s.performPowerReset_edges _ _⟩
    | pinReset hrx => exact ⟨_, rfl, s.performPowerReset_edges _ _⟩
    | linkReset =>
      refine ⟨_, rfl, ?_⟩
      split
      · split
        · exact s.performLinkReset_edges.trans (State.performDeviceReset_edges _)
        · exact s.performLinkReset_edges
      · exact .refl s
      · exact .refl s
    | gapTimerExpiry =>
      refine ⟨_, rfl, ?_⟩
      split
      · exact State.modLink_edges s.link.truncate_changes
      · exact .refl s
    | byteArrival b =>
      refine ⟨_, rfl, ?_⟩
      split
      · have begun : s.Edges (s.modLink fun k => { k with rxChar := none }) := State.modLink_edges (Link.Same.changes {})
        exact .after (State.raiseAll_edges _ _) (begun.trans (State.takeByte_edges _ _))
      · exact .refl s
    | byteFramingError =>
      refine ⟨_, rfl, ?_⟩
      split
      · exact State.modLink_edges (s.link.abandonFrame_changes.trans (Link.Same.changes {}))
      · exact .refl s
    | wordArrival l w m =>
      have arrived : s.Edges (s.modLane l fun _ => ((s.lane l).arrive (s.needed l) l w m).1) :=
        State.modLane_edges (.arrive _ _ _ _ _)
      exact ⟨_, rfl, arrived.trans (State.raiseAll_edges _ _)⟩
    | dispatchStart =>
      refine ⟨_, rfl, ?_⟩
      split
      · split
        · exact s.startDispatch_edges _ _
        · exact .refl s
      · exact .refl s
    | damageMarking c k =>
      refine ⟨_, rfl, ?_⟩
      repeat' split
      all_goals exact State.Inner.edges {}
    | dispatchCompletion choice =>
      refine ⟨_, rfl, ?_⟩
      split
      · exact .refl s
      · exact s.complete_edges _ _
    | ackTimerExpiry c b =>
      refine ⟨_, rfl, ?_⟩
      split
      · split
        · exact State.Inner.edges ⟨rfl, rfl, le_rfl⟩
        · exact State.Inner.settle {}
      · exact .refl s
    | transmissionStart =>
      refine ⟨_, rfl, ?_⟩
      split
      · exact (s.startFrom_inner _).edges
      · exact .refl s
    | sendCompletion =>
      refine ⟨_, rfl, ?_⟩
      split
      · exact .refl s
      · exact .after (State.raiseAll_edges _ _) (s.freeTransmitter_inner.edges.trans (State.sent_edges _ _))
    | hrxChangesToSpace => exact ⟨_, rfl, State.modLink_edges s.link.hrxToSpace_same.changes⟩
    | hrxChangesToMark => exact ⟨_, rfl, State.modLink_edges (Link.Same.changes {})⟩
    | _ => exact nomatch hf

/-- A step's effect on the edges; the command that leaves the front of the queue is none of them. -/
theorem step_edges {s t : State} (h : step s = .next t) : s.Edges t := by
  unfold step at h
  split at h
  · obtain rfl := Host.Outcome.next.inj h
    exact s.takeStopRequest_inner.settle
  · next c rest _ =>
    obtain ⟨u, hu, edges⟩ := exec_edges c { s with pending := rest }
    obtain rfl := Host.Outcome.next.inj (hu.symm.trans h)
    exact ⟨edges.link, edges.lanes, edges.notices⟩

/-! ## The obligations -/

/-- Settles O51: the changes of the link controller keep its law and the bounds of its queues, those of a lane record
the bound of its FIFO. -/
theorem stepKeepsQueuesAndLinkInBounds : Obligations.StepKeepsQueuesAndLinkInBounds := by
  refine ⟨fun s t hs h => ?_, fun s t hs h => ?_⟩
  · have edges := step_edges h
    obtain ⟨inbound, replies⟩ := edges.link.bounded ⟨hs.inbound, hs.replies⟩
    exact ⟨inbound, replies, edges.notices hs.notices, fun l => (edges.lanes l).fifo_le (hs.fifos l)⟩
  · exact State.linkLaw_iff.2 ((step_edges h).link.law (State.linkLaw_iff.1 hs))

/-- Settles O57: every change of a lane record keeps the lane law. -/
theorem stepKeepsTheLaneLaw : Obligations.StepKeepsTheLaneLaw := fun _ _ hs h l =>
  ((step_edges h).lanes l).law (hs l)

end Sys2Proof.Machine
end

section
/-! PROOFS. LANE_SET and LANE_QUERY with their whole next state: what each owner answers (O23). -/

namespace Sys2Proof.Machine

/-! ## LANE_SET (R59) -/

theorem State.laneInUse_iff {s : State} {l : LaneId} :
    s.laneInUse l = true ↔
      ∃ c, (s.chan c).config.lane = l ∧ ((s.chan c).state = .running ∨ (s.chan c).state = .stopping) := by
  simp [State.laneInUse, and_comm]

theorem boolOfByte_eq_none {b : Byte} (h : 2 ≤ b.toNat) : boolOfByte b = none := by
  have h0 : b ≠ 0 := by rintro rfl; exact absurd h (by decide)
  have h1 : b ≠ 1 := by rintro rfl; exact absurd h (by decide)
  exact (if_neg h0).trans (if_neg h1)

theorem boolOfByte_eq_some {b : Byte} (h : b.toNat < 2) : boolOfByte b = some (decide (b = 1)) := by
  have : b = 0 ∨ b = 1 := by bv_omega
  rcases this with rfl | rfl <;> rfl

theorem laneSetOwner_noLane {p : List Byte} (s : State) (h : 4 ≤ (byteAt p 0).toNat) :
    laneSetOwner p s = .refuse .laneSet .badArg s := by
  rw [laneSetOwner, indexOf_eq_none.2 h]

theorem laneSetOwner_busy {p : List Byte} {s : State} {l : LaneId} (hl : indexOf 4 (byteAt p 0) = some l)
    (h : s.laneInUse l = true) : laneSetOwner p s = .refuse .laneSet .wrongState s := by
  rw [laneSetOwner, hl]
  exact if_pos h

/-- The answer on a lane that no run uses: the enable and M are judged. -/
theorem laneSetOwner_unused {p : List Byte} {s : State} {l : LaneId} (hl : indexOf 4 (byteAt p 0) = some l)
    (h : s.laneInUse l = false) :
    laneSetOwner p s =
      if (byteAt p 1).toNat < 2 ∧ 1 ≤ (byteAt p 2).toNat ∧ (byteAt p 2).toNat ≤ 8 then
        .done .ok (s.modLane l fun r => r.configure (decide (byteAt p 1 = 1)) (byteAt p 2).toNat)
      else .refuse .laneSet .badArg s := by
  rw [laneSetOwner, hl]
  dsimp only
  rw [if_neg (Bool.eq_false_iff.1 h)]
  by_cases he : (byteAt p 1).toNat < 2
  · rw [boolOfByte_eq_some he]
    simp only [he, true_and]
  · rw [boolOfByte_eq_none (not_lt.1 he), if_neg fun hc => he hc.1]

/-! ## LANE_QUERY (R60) -/

theorem laneQueryOwner_noLane {p : List Byte} (s : State) (h : 4 ≤ (byteAt p 0).toNat) :
    laneQueryOwner p s = .refuse .laneQuery .badArg s := by
  rw [laneQueryOwner, indexOf_eq_none.2 h]

theorem laneQueryOwner_lane {p : List Byte} {s : State} {l : LaneId} (hl : indexOf 4 (byteAt p 0) = some l) :
    laneQueryOwner p s =
      ⟨if clearFlag p then s.modLane l Lane.clearCounters else s, .ok, (s.lane l).report, []⟩ := by
  rw [laneQueryOwner, hl]

theorem reservedOk_laneQuery {n flag : Byte} (h : flag.toNat < 2) : reservedOk .laneQuery [n, flag] = true :=
  decide_eq_true h

/-! ## The obligation -/

/-- Settles O23, by what the owners of LANE_SET and LANE_QUERY answer in each case. -/
theorem laneCommandsSetAndReport : Obligations.LaneCommandsSetAndReport := by
  refine ⟨fun s tag n enable m ht hn => ?_, fun s tag enable m l ht => ?_, fun s tag n flag ht hf hn => ?_,
    fun s tag flag l ht hf => ?_⟩
  · exact congrArg Host.Outcome.next (State.take_refused (c := .laneSet) ht rfl rfl (laneSetOwner_noLane _ hn))
  · intro busy
    have refused (status : Status) (h : laneSetOwner [natByte l.val, enable, m, 0] s.popInbound =
        .refuse .laneSet status s.popInbound) : exec (.laneSet tag [natByte l.val, enable, m, 0]) s =
          .next (s.answered tag 0x20 status []) :=
      congrArg Host.Outcome.next (State.take_refused (c := .laneSet) ht rfl rfl h)
    have lane : indexOf 4 (byteAt [natByte l.val, enable, m, 0] 0) = some l := indexOf_natByte l (by decide)
    have unused (h : ¬ busy) := laneSetOwner_unused (s := s.popInbound) lane
      (Bool.eq_false_iff.2 (mt State.laneInUse_iff.1 h))
    refine ⟨fun h => refused _ (laneSetOwner_busy lane (State.laneInUse_iff.2 h)), fun h bad => ?_,
      fun h he h1 h8 => ?_⟩
    · refine refused _ ((unused h).trans (if_neg ?_))
      rintro ⟨he : enable.toNat < 2, h1 : 1 ≤ m.toNat, h8 : m.toNat ≤ 8⟩
      omega
    · refine congrArg Host.Outcome.next ((State.take_next (c := .laneSet) (ns := [])
        (t := s.modLane l fun r => r.configure (decide (enable = 1)) m.toNat) ht rfl rfl
        ((unused h).trans (if_pos ⟨he, h1, h8⟩))).trans ?_)
      simp only [Lane.configure, decide_eq_true_eq]
      rfl
  · exact congrArg Host.Outcome.next
      (State.take_refused (c := .laneQuery) ht rfl (reservedOk_laneQuery hf) (laneQueryOwner_noLane _ hn))
  · intro r
    have answer := laneQueryOwner_lane (p := [natByte l.val, flag]) (s := s.popInbound) (l := l)
      (indexOf_natByte l (by decide))
    have cleared : (if clearFlag [natByte l.val, flag] then s.popInbound.modLane l Lane.clearCounters
        else s.popInbound) = State.popInbound { s with
          lanes := if flag = 1 then s.lanes.set l.val { r with received := 0, misframes := 0, overruns := 0 }
            else s.lanes } := by
      by_cases h1 : flag = 1
      · rw [if_pos ((clearFlag_iff hf).2 h1), if_pos h1]; rfl
      · rw [if_neg (mt (clearFlag_iff hf).1 h1), if_neg h1]
    rw [cleared] at answer
    exact congrArg Host.Outcome.next
      (State.take_next (c := .laneQuery) (ns := []) ht rfl (reservedOk_laneQuery hf) answer)

end Sys2Proof.Machine
end

section
/-! PROOFS. The bits on the wires (R46, R128): the value of the bits of a character and of a word, what one bit does,
and the runs of bits that spell a command (O18). -/

namespace Sys2Proof.Machine

/-! ## Values of bits -/

/-- The low bits of a number, least significant first, sum to its remainder. -/
theorem foldr_testBit (n x : Nat) :
    ((List.range n).map x.testBit).foldr (fun b acc => 2 * acc + b.toNat) 0 = x % 2 ^ n := by
  induction n generalizing x with
  | zero => simp [Nat.mod_one]
  | succ n ih =>
    have shifted : (List.range n).map (x.testBit ∘ Nat.succ) = (List.range n).map (x / 2).testBit :=
      List.map_congr_left fun i _ => Nat.testBit_succ x i
    rw [List.range_succ_eq_map, List.map_cons, List.map_map, shifted, List.foldr_cons, ih, Nat.toNat_testBit,
      Nat.pow_succ', Nat.mod_mul]
    omega

/-- The bits of a number below 2^m, most significant first: the first `n` of them make its upper part. -/
theorem foldl_testBit {m x : Nat} (hx : x < 2 ^ m) (n : Nat) (hn : n ≤ m) :
    ((List.range n).map fun i => x.testBit (m - 1 - i)).foldl (fun acc b => 2 * acc + b.toNat) 0 =
      x / 2 ^ (m - n) := by
  induction n with
  | zero => simp [Nat.div_eq_of_lt hx]
  | succ n ih =>
    have next : m - n = (m - 1 - n) + 1 := by omega
    have left : m - (n + 1) = m - 1 - n := by omega
    rw [List.range_succ, List.map_append, List.foldl_append, ih (Nat.le_of_succ_le hn), next, left, Nat.pow_succ,
      ← Nat.div_div_eq_div_mul]
    simp only [List.map_cons, List.map_nil, List.foldl_cons, List.foldl_nil, Nat.toNat_testBit]
    omega

theorem byteOfBits_bits (b : Byte) : byteOfBits ((List.range 8).map b.getLsbD) = b := by
  refine BitVec.eq_of_toNat_eq ((BitVec.toNat_ofNat _ _).trans ?_)
  have value := foldr_testBit 8 b.toNat
  rw [show ((List.range 8).map b.getLsbD).foldr (fun b acc => 2 * acc + b.toNat) 0 = b.toNat % 2 ^ 8 from value,
    Nat.mod_mod, Nat.mod_eq_of_lt b.isLt]

theorem wordOfBits_bits (w : Sample) : wordOfBits ((List.range 16).map w.getMsbD) = w := by
  have bits : (List.range 16).map w.getMsbD = (List.range 16).map fun i => w.toNat.testBit (16 - 1 - i) :=
    List.map_congr_left fun i hi => by
      rw [BitVec.getMsbD_eq_getLsbD, BitVec.testBit_toNat]
      simp [List.mem_range.1 hi]
  refine BitVec.eq_of_toNat_eq ((BitVec.toNat_ofNat _ _).trans ?_)
  rw [bits, foldl_testBit w.isLt 16 le_rfl, Nat.sub_self, pow_zero, Nat.div_one, Nat.mod_eq_of_lt w.isLt]

/-! ## Characters of the host link (R128) -/

/-- With a character being sampled, a level of HRX moves the break detector alone (R145). -/
theorem Link.hrxLevel_sampling {k : Link} {bits : List Bool} (hr : k.receiver = .readyForStart)
    (hc : k.rxChar = some bits) (hd : k.detector ≠ .broken) (mark : Bool) :
    k.hrxLevel mark = { k with detector := if mark then .idle else .space } := by
  cases mark with
  | true =>
    show { k with detector := .idle, receiver := .readyForStart } = _
    rw [← hr]; rfl
  | false =>
    show k.hrxToSpace = _
    have kept : k.startBit = k.rxChar := by rw [Link.startBit, hr, hc]
    unfold Link.hrxToSpace
    split
    · rw [kept]; rfl
    · next h => rw [if_neg Bool.false_ne_true, ← h]
    · contradiction

section
variable {s : State} {bits : List Bool}

/-- A line that is at space already changes nothing (R145). -/
theorem State.modLink_hrxToSpace (hd : s.link.detector ≠ .idle) : s.modLink Link.hrxToSpace = s := by
  have still : s.link.hrxToSpace = s.link := by
    unfold Link.hrxToSpace
    split
    · contradiction
    · rfl
    · rfl
  exact congrArg (fun k => { s with link := k }) still

/-- With no character being sampled the line is only watched. -/
theorem State.hrxBit_watching (h : s.link.receiver = .waitMark ∨ s.link.rxChar = none) (mark : Bool) :
    s.hrxBit mark = s.modLink fun k => k.hrxLevel mark := by
  have watched : s.link.sampleHrx mark = (s.link.hrxLevel mark, none) := by
    unfold Link.sampleHrx
    split
    · next h1 h2 => rw [h1, h2] at h; rcases h with h | h <;> exact nomatch h
    · rfl
  unfold State.hrxBit
  rw [watched]
  rfl

/-- The state with these data bits of a character sampled, and the break detector at `d`. -/
def State.sampling (s : State) (bits : List Bool) (d : Detector) : State :=
  { s with link := { s.link with rxChar := some bits, detector := d } }

/-- A change from mark to space at a ready receiver begins a character. -/
theorem State.hrxBit_starts (hr : s.link.receiver = .readyForStart) (hc : s.link.rxChar = none)
    (hd : s.link.detector = .idle) : s.hrxBit false = s.sampling [] .space := by
  have begun : s.link.startBit = some [] := by rw [Link.startBit, hr, hc]
  have fallen : s.link.hrxToSpace = { s.link with detector := .space, rxChar := some [] } := by
    rw [Link.hrxToSpace, hd, begun]
  rw [State.hrxBit_watching (.inr hc)]
  exact congrArg (fun k => { s with link := k }) fallen

/-- The levels of a character being sampled move the detector between IDLE and SPACE. -/
theorem State.sampling_hrxLevel (hr : s.link.receiver = .readyForStart) {d : Detector} (hd : d ≠ .broken)
    (mark : Bool) :
    (s.sampling bits d).link.hrxLevel mark = (s.sampling bits (if mark then .idle else .space)).link :=
  Link.hrxLevel_sampling (k := (s.sampling bits d).link) hr rfl hd mark

/-- A data bit of the character being sampled. -/
theorem State.hrxBit_gathers (hr : s.link.receiver = .readyForStart) {d : Detector} (hd : d ≠ .broken)
    (hn : bits.length < 8) (mark : Bool) :
    (s.sampling bits d).hrxBit mark = s.sampling (bits ++ [mark]) (if mark then .idle else .space) := by
  have gathered : (s.sampling bits d).link.sampleHrx mark =
      ((s.sampling (bits ++ [mark]) (if mark then .idle else .space)).link, none) := by
    unfold Link.sampleHrx
    rw [State.sampling_hrxLevel hr hd, show (s.sampling bits d).link.receiver = .readyForStart from hr]
    exact if_pos hn
  unfold State.hrxBit
  rw [gathered]
  rfl

/-- The stop bit of the character being sampled ends it. -/
theorem State.hrxBit_ends (hr : s.link.receiver = .readyForStart) {d : Detector} (hd : d ≠ .broken)
    (hn : bits.length = 8) (mark : Bool) :
    (s.sampling bits d).hrxBit mark = { s.sampling bits (if mark then .idle else .space) with
      pending := (if mark then .byteArrival (byteOfBits bits) else .byteFramingError) :: s.pending } := by
  have ended : (s.sampling bits d).link.sampleHrx mark =
      ((s.sampling bits (if mark then .idle else .space)).link,
       some (if mark then .byteArrival (byteOfBits bits) else .byteFramingError)) := by
    unfold Link.sampleHrx
    rw [State.sampling_hrxLevel hr hd, show (s.sampling bits d).link.receiver = .readyForStart from hr]
    exact if_neg hn.not_lt
  unfold State.hrxBit
  rw [ended]
  rfl

/-- Data bits, as many as the character has room for. -/
theorem State.hrxBit_gathersAll (levels : List Bool) (hr : s.link.receiver = .readyForStart) {d : Detector}
    (hd : d ≠ .broken) (hn : bits.length + levels.length ≤ 8) :
    ∃ d' : Detector, d' ≠ .broken ∧
      levels.foldl State.hrxBit (s.sampling bits d) = s.sampling (bits ++ levels) d' := by
  induction levels generalizing bits d with
  | nil => exact ⟨d, hd, by rw [List.append_nil]; rfl⟩
  | cons m ms ih =>
    rw [List.length_cons] at hn
    have moved : (if m then Detector.idle else .space) ≠ .broken := by cases m <;> exact (nomatch ·)
    have room : (bits ++ [m]).length + ms.length ≤ 8 := by rw [List.length_append, List.length_singleton]; omega
    obtain ⟨d', hd', gathered⟩ := ih moved room
    exact ⟨d', hd', by rw [List.foldl_cons, State.hrxBit_gathers hr hd (by omega), gathered, List.append_assoc]; rfl⟩

end

/-- A start bit, eight data bits and a stop bit. -/
theorem State.hrxBit_character {s : State} (b : Byte) (stop : Bool) (hr : s.link.receiver = .readyForStart)
    (hc : s.link.rxChar = none) (hd : s.link.detector = .idle) :
    (false :: (List.range 8).map b.getLsbD ++ [stop]).foldl State.hrxBit s =
      { s.sampling ((List.range 8).map b.getLsbD) (if stop then .idle else .space) with
        pending := (if stop then .byteArrival b else .byteFramingError) :: s.pending } := by
  obtain ⟨d, hd', gathered⟩ := State.hrxBit_gathersAll (s := s) (bits := []) (d := .space)
    ((List.range 8).map b.getLsbD) hr (nomatch ·) (by simp)
  rw [List.cons_append, List.foldl_cons, State.hrxBit_starts hr hc hd, List.foldl_append, gathered, List.nil_append,
    List.foldl_cons, List.foldl_nil, State.hrxBit_ends hr hd' (by simp), byteOfBits_bits]

/-! ## Lane words (R46) -/

/-- Lane `l` with `k` as its word in assembly. -/
def State.holding (s : State) (l : LaneId) (k : PartialWord) : State :=
  { s with lanes := s.lanes.set l.val { s.lane l with partialWord := k } }

theorem State.holding_lane (s : State) (l : LaneId) (k : PartialWord) :
    (s.holding l k).lane l = { s.lane l with partialWord := k } := by
  simp [State.holding, State.lane]

theorem State.holding_holding (s : State) (l : LaneId) (k k' : PartialWord) :
    (s.holding l k).holding l k' = s.holding l k' := by
  simp [State.holding, State.lane]

section
variable {k : PartialWord} {hunting data marker : Bool}

/-- The bit cuts a new word: the marker goes high, and not within a word that began with it. -/
theorem PartialWord.restarts_iff :
    k.restarts marker = true ↔
      marker = true ∧ k.lastMarker ≠ some true ∧ (k.bits = [] ∨ k.marker = false) := by
  simp [PartialWord.restarts, and_assoc, or_comm]

theorem PartialWord.gather_first (h : k.bits = []) :
    k.gather hunting data marker = ⟨[data], marker, if hunting then some marker else none⟩ := by
  unfold PartialWord.gather
  split <;> simp [h]

theorem PartialWord.gather_cut (h : k.restarts marker = true) :
    k.gather true data marker = ⟨[data], marker, some marker⟩ := by
  simp [PartialWord.gather, h]

theorem PartialWord.gather_next (h : k.bits ≠ []) (hc : hunting = true → k.restarts marker = false) :
    k.gather hunting data marker = ⟨k.bits ++ [data], k.marker, if hunting then some marker else none⟩ := by
  have kept : ¬ (hunting && k.restarts marker) = true := by
    rw [Bool.and_eq_true_iff]
    exact fun e => Bool.eq_false_iff.1 (hc e.1) e.2
  unfold PartialWord.gather
  rw [if_neg kept]
  simp [h]

end

section
variable {s : State} {l : LaneId} {data marker : Bool} {k : PartialWord}

/-- A lane that is OFF samples nothing (R48). -/
theorem State.laneBit_off (h : (s.lane l).state = .off) : s.laneBit l data marker = s := by
  have same : (s.lane l).sampleBit l data marker = (s.lane l, none) := by rw [Lane.sampleBit, h]
  unfold State.laneBit
  rw [same]
  show { s with lanes := s.lanes.set l.val s.lanes[l.val] } = s
  rw [Vector.set_getElem_self]

theorem Lane.sampleBit_on {r : Lane} (h : r.state ≠ .off)
    (hk : r.partialWord.gather (r.state == .hunt) data marker = k) :
    r.sampleBit l data marker = ({ r with partialWord := k },
      if k.bits.length = 16 then some (.wordArrival l (wordOfBits k.bits) k.marker) else none) := by
  subst hk
  unfold Lane.sampleBit
  split
  · contradiction
  all_goals rfl

/-- A bit that completes no word. -/
theorem State.laneBit_gathers (h : (s.lane l).state ≠ .off)
    (hk : (s.lane l).partialWord.gather ((s.lane l).state == .hunt) data marker = k) (hn : k.bits.length ≠ 16) :
    s.laneBit l data marker = s.holding l k := by
  unfold State.laneBit
  rw [Lane.sampleBit_on h hk, if_neg hn]
  rfl

/-- The sixteenth bit of a word makes its arrival the next command. -/
theorem State.laneBit_arrives {w : Sample} (h : (s.lane l).state ≠ .off)
    (hk : (s.lane l).partialWord.gather ((s.lane l).state == .hunt) data marker = k)
    (hw : k.bits = (List.range 16).map w.getMsbD) :
    s.laneBit l data marker =
      { s.holding l k with pending := .wordArrival l w k.marker :: s.pending } := by
  have full : k.bits.length = 16 := by simp [hw]
  unfold State.laneBit
  rw [Lane.sampleBit_on h hk, if_pos full, hw, wordOfBits_bits]
  rfl

end

/-- The marker level that a lane keeps of the bit sampled last: one in HUNT alone. -/
def Lane.lastLevel (r : Lane) (marker : Bool) : Option Bool := if r.state == .hunt then some marker else none

/-- The word in assembly after the first `n` bits of `w`: `m` is the marker level of the first. -/
def Lane.spelled (r : Lane) (w : Sample) (m : Bool) (marker : Nat → Bool) (n : Nat) : PartialWord :=
  ⟨(List.range n).map w.getMsbD, m, r.lastLevel (marker (n - 1))⟩

/-- The next bit of a word; in HUNT, of one that began with the marker, which no later bit cuts. -/
theorem Lane.spelled_gather {r : Lane} {w : Sample} {m : Bool} {marker : Nat → Bool}
    (hm : r.state = .hunt → m = true) (n : Nat) :
    (r.spelled w m marker (n + 1)).gather (r.state == .hunt) (w.getMsbD (n + 1)) (marker (n + 1)) =
      r.spelled w m marker (n + 2) := by
  have begun : (r.spelled w m marker (n + 1)).bits ≠ [] := by simp [Lane.spelled]
  rw [PartialWord.gather_next begun]
  · unfold Lane.spelled
    rw [List.range_succ (n := n + 1), List.map_append]
    rfl
  · intro hunting
    refine Bool.eq_false_iff.2 fun cut => ?_
    obtain ⟨-, -, empty | low⟩ := PartialWord.restarts_iff.1 cut
    · exact begun empty
    · exact nomatch (hm (beq_iff_eq.1 hunting)).symm.trans low

/-- Sixteen bits of a word whose first bit began it. -/
theorem State.laneBit_word {s : State} {l : LaneId} {w : Sample} {marker : Nat → Bool} {m : Bool}
    (h : (s.lane l).state ≠ .off) (hm : (s.lane l).state = .hunt → m = true)
    (first : s.laneBit l (w.getMsbD 0) (marker 0) = s.holding l ((s.lane l).spelled w m marker 1)) :
    (List.range 16).foldl (fun s i => s.laneBit l (w.getMsbD i) (marker i)) s =
      { s.holding l ((s.lane l).spelled w m marker 16) with pending := .wordArrival l w m :: s.pending } := by
  have on (k : PartialWord) : ((s.holding l k).lane l).state ≠ .off := by rw [State.holding_lane]; exact h
  have gathered (n : Nat) : ((s.holding l ((s.lane l).spelled w m marker (n + 1))).lane l).partialWord.gather
      (((s.holding l ((s.lane l).spelled w m marker (n + 1))).lane l).state == .hunt) (w.getMsbD (n + 1))
      (marker (n + 1)) = (s.lane l).spelled w m marker (n + 2) := by
    rw [State.holding_lane]
    exact Lane.spelled_gather hm n
  have partway (n : Nat) (hn : n < 15) :
      (List.range (n + 1)).foldl (fun s i => s.laneBit l (w.getMsbD i) (marker i)) s =
        s.holding l ((s.lane l).spelled w m marker (n + 1)) := by
    induction n with
    | zero => exact first
    | succ n ih =>
      have short : ((s.lane l).spelled w m marker (n + 2)).bits.length ≠ 16 := by simp [Lane.spelled]; omega
      rw [List.range_succ, List.foldl_append, ih (by omega)]
      exact (State.laneBit_gathers (on _) (gathered n) short).trans (State.holding_holding s l _ _)
  rw [List.range_succ, List.foldl_append, partway 14 (by decide)]
  refine (State.laneBit_arrives (on _) (gathered 14) rfl).trans ?_
  rw [State.holding_holding]
  rfl

/-- Sixteen bits on a lane in CHECK or LOCKED: whatever the marker does after the first, they are one word. -/
theorem State.laneBits_check {s : State} {l : LaneId} (w : Sample) (marker : Nat → Bool)
    (hs : (s.lane l).state = .check ∨ (s.lane l).state = .locked) (hb : (s.lane l).partialWord.bits = []) :
    (List.range 16).foldl (fun s i => s.laneBit l (w.getMsbD i) (marker i)) s =
      { s.holding l ⟨(List.range 16).map w.getMsbD, marker 0, none⟩ with
        pending := .wordArrival l w (marker 0) :: s.pending } := by
  have on : (s.lane l).state ≠ .off := by rcases hs with hs | hs <;> rw [hs] <;> exact (nomatch ·)
  have settled : ((s.lane l).state == .hunt) = false := by rcases hs with hs | hs <;> rw [hs] <;> rfl
  have level (m : Bool) : (s.lane l).lastLevel m = none := by rw [Lane.lastLevel, settled]; rfl
  have first := State.laneBit_gathers (data := w.getMsbD 0) on
    (PartialWord.gather_first (marker := marker 0) hb) (by simp)
  refine (State.laneBit_word (m := marker 0) on (fun e => ?_) first).trans ?_
  · rw [e] at settled; exact nomatch settled
  · rw [Lane.spelled, level]

/-- Sixteen bits in HUNT from one at which the marker goes high, and not within a word that began with it. -/
theorem State.laneBits_cut {s : State} {l : LaneId} (w : Sample) (marker : Nat → Bool)
    (hs : (s.lane l).state = .hunt) (cut : (s.lane l).partialWord.restarts (marker 0) = true) :
    (List.range 16).foldl (fun s i => s.laneBit l (w.getMsbD i) (marker i)) s =
      { s.holding l ⟨(List.range 16).map w.getMsbD, true, some (marker 15)⟩ with
        pending := .wordArrival l w true :: s.pending } := by
  have on : (s.lane l).state ≠ .off := by rw [hs]; exact (nomatch ·)
  have hunting : ((s.lane l).state == .hunt) = true := by rw [hs]; rfl
  have level (m : Bool) : (s.lane l).lastLevel m = some m := by rw [Lane.lastLevel, hunting]; rfl
  have began : (s.lane l).partialWord.gather ((s.lane l).state == .hunt) (w.getMsbD 0) (marker 0) =
      (s.lane l).spelled w true marker 1 := by
    show _ = (⟨[w.getMsbD 0], true, (s.lane l).lastLevel (marker 0)⟩ : PartialWord)
    rw [hunting, PartialWord.gather_cut cut, level, (PartialWord.restarts_iff.1 cut).1]
  have first := State.laneBit_gathers on began (by simp [Lane.spelled])
  exact (State.laneBit_word on (fun _ => rfl) first).trans (by rw [Lane.spelled, level])

/-- A bit in HUNT that cuts no word, within a word in assembly, is the next bit of that word. -/
theorem PartialWord.gather_uncut {k : PartialWord} {data marker : Bool} (h : ¬ k.restarts marker = true)
    (hb : k.bits ≠ []) : k.gather true data marker = ⟨k.bits ++ [data], k.marker, some marker⟩ :=
  PartialWord.gather_next hb fun _ => Bool.eq_false_iff.2 h

/-! ## The obligation -/

/-- Settles O18: the ten levels of a character, a line only watched, the sixteen bits of a word that is not cut, each
kind of bit in HUNT, and the sixteen bits of a word that is cut. -/
theorem wireBitsSpellCommands : Obligations.WireBitsSpellCommands := by
  refine ⟨fun s b stop hr hc hd => State.hrxBit_character b stop hr hc hd,
    fun s h => ⟨fun hd => (State.hrxBit_watching h false).trans (State.modLink_hrxToSpace hd),
      State.hrxBit_watching h true⟩,
    fun s l w marker hs hb => State.laneBits_check w marker hs hb, fun s l data marker hs => ?_,
    fun s l w marker hs hl hb hm => State.laneBits_cut w marker hs (PartialWord.restarts_iff.2 ⟨hm, hl, hb⟩),
    fun s l data marker hs => State.laneBit_off hs⟩
  intro k cuts holds
  have on : (s.lane l).state ≠ .off := by rw [hs]; exact (nomatch ·)
  have hunting : ((s.lane l).state == .hunt) = true := by rw [hs]; rfl
  have uncut (h : ¬ cuts) (hb : k.bits ≠ []) :
      k.gather ((s.lane l).state == .hunt) data marker = ⟨k.bits ++ [data], k.marker, some marker⟩ := by
    rw [hunting]
    exact PartialWord.gather_uncut (mt PartialWord.restarts_iff.1 h) hb
  refine ⟨fun h => ?_, fun h hb => ?_, fun h hb hn => ?_, fun w h hw => ?_⟩
  · have cut := PartialWord.gather_cut (data := data) (PartialWord.restarts_iff.2 h)
    rw [h.1] at cut ⊢
    exact State.laneBit_gathers on (by rw [hunting]; exact cut) (by simp)
  · exact State.laneBit_gathers on (by rw [hunting]; exact PartialWord.gather_first hb) (by simp)
  · refine State.laneBit_gathers on (uncut h hb) ?_
    rw [List.length_append, List.length_singleton]
    omega
  · have hb : k.bits ≠ [] := by
      intro e
      have := congrArg List.length hw
      simp [e] at this
    exact State.laneBit_arrives on (uncut h hb) hw

end Sys2Proof.Machine
end

section
/-! PROOFS. The arithmetic of the sum engine (R73 to R75): the accumulator under its range policy (O30), the scaling and
the clip (O31). -/

namespace Sys2Proof.Machine

/-! ## The accumulator (R73, R74) -/

theorem within_iff {b x : Int} : within b x = true ↔ -b ≤ x ∧ x < b := by
  simp [within]

/-- A sum in the accumulator's range is kept. -/
theorem addTerm_kept {policy : RangePolicy} {acc : Int × Bool} {t : Int}
    (h : -2 ^ 37 ≤ acc.1 + t ∧ acc.1 + t < 2 ^ 37) : addTerm policy acc t = (acc.1 + t, acc.2) :=
  if_pos (within_iff.2 h)

/-- A sum above the range: the bound under SAT, 2^38 less under WRAP. -/
theorem addTerm_above {policy : RangePolicy} {acc : Int × Bool} {t : Int} (h : 2 ^ 37 ≤ acc.1 + t) :
    addTerm policy acc t = (match policy with
      | .sat => 2 ^ 37 - 1
      | .wrap => acc.1 + t - 2 ^ 38, true) := by
  have out : ¬ within accBound (acc.1 + t) = true := fun e => by
    have := (within_iff.1 e).2; simp only [accBound] at this; omega
  have pos : 0 < acc.1 + t := by omega
  unfold addTerm
  dsimp only
  rw [if_neg out]
  cases policy <;> simp [pos, accBound]

/-- A sum below the range: the bound under SAT, 2^38 more under WRAP. -/
theorem addTerm_below {policy : RangePolicy} {acc : Int × Bool} {t : Int} (h : acc.1 + t < -2 ^ 37) :
    addTerm policy acc t = (match policy with
      | .sat => -2 ^ 37
      | .wrap => acc.1 + t + 2 ^ 38, true) := by
  have out : ¬ within accBound (acc.1 + t) = true := fun e => by
    have := (within_iff.1 e).1; simp only [accBound] at this; omega
  have neg : ¬ 0 < acc.1 + t := by omega
  unfold addTerm
  dsimp only
  rw [if_neg out]
  cases policy <;> simp [neg, accBound]

/-- Under WRAP an addition is exact modulo 2^38, inside the range and beyond it. -/
theorem addTerm_wrap_emod (acc : Int × Bool) (t : Int) :
    (addTerm .wrap acc t).1 % 2 ^ 38 = (acc.1 + t) % 2 ^ 38 := by
  rcases lt_or_ge (acc.1 + t) (-2 ^ 37) with h | h
  · rw [addTerm_below h]; dsimp only; omega
  · rcases lt_or_ge (acc.1 + t) (2 ^ 37) with h' | h'
    · rw [addTerm_kept ⟨h, h'⟩]
    · rw [addTerm_above h']; dsimp only; omega

/-- Under WRAP a sequence of additions is exact modulo 2^38. -/
theorem foldl_addTerm_wrap_emod (ts : List Int) (acc : Int × Bool) :
    (ts.foldl (addTerm .wrap) acc).1 % 2 ^ 38 = (acc.1 + ts.sum) % 2 ^ 38 := by
  induction ts generalizing acc with
  | nil => simp
  | cons t ts ih =>
    have step := addTerm_wrap_emod acc t
    rw [List.foldl_cons, ih, List.sum_cons]
    omega

/-- The accumulation over words with good marks adds the terms in the order of k. -/
theorem accumulate_good (g : ChanConfig) (c x : Nat → StoredWord) (n k : Nat) (acc : Int × Bool)
    (h : ∀ j, k ≤ j → j < k + n → (c j).markGood = true ∧ (x j).markGood = true) :
    accumulate g c x n k acc = .ok ((List.range' k n).foldl
      (fun a j => addTerm g.policy a (term g.fraction (c j).value (x j).value)) acc) := by
  induction n generalizing k acc with
  | zero => rfl
  | succ n ih =>
    obtain ⟨hc, hx⟩ := h k le_rfl (by omega)
    rw [accumulate, hc, hx, List.range'_succ, List.foldl_cons]
    exact ih (k + 1) _ fun j h1 h2 => h j (by omega) (by omega)

/-- Settles O30, from the three cases of an addition and the order of the terms. -/
theorem accumulatorFollowsTheRangePolicy : Obligations.AccumulatorFollowsTheRangePolicy := by
  refine ⟨fun policy a t guard => ⟨fun h h' => ?_, fun h => ?_, fun h => ?_, fun h => ?_, fun h => ?_⟩,
    fun _ _ _ => rfl, fun g c x n good => ⟨?_, fun _ => ?_⟩⟩
  · exact addTerm_kept ⟨h, show a + t < _ by omega⟩
  · exact addTerm_above (show _ ≤ a + t by omega)
  · exact addTerm_below h
  · exact addTerm_above (show _ ≤ a + t by omega)
  · exact addTerm_below h
  · rw [accumulate_good g c x n 0 _ fun j _ hj => good j (by omega), List.range_eq_range', List.foldl_map]
  · have congruent := foldl_addTerm_wrap_emod
      ((List.range n).map fun k => term g.fraction (c k).value (x k).value) (0, false)
    dsimp only at congruent ⊢
    omega

/-! ## Scaling and the clip (R75) -/

/-- A value in the 24-bit range is the output. -/
theorem clip_within {policy : RangePolicy} {x : Int} (h : -2 ^ 23 ≤ x ∧ x < 2 ^ 23) :
    clip policy x = (BitVec.ofInt 24 x, false) := if_pos (within_iff.2 h)

/-- A value beyond it is clipped: to the bound it crossed under SAT, to its low 24 bits under WRAP. -/
theorem clip_beyond {policy : RangePolicy} {x : Int} (h : x < -2 ^ 23 ∨ 2 ^ 23 ≤ x) :
    clip policy x = (BitVec.ofInt 24 (match policy with
      | .sat => if 0 < x then 2 ^ 23 - 1 else -2 ^ 23
      | .wrap => x), true) := by
  have out : ¬ within outBound x = true := fun e => by
    have := within_iff.1 e; simp only [outBound] at this; omega
  unfold clip
  rw [if_neg out]
  cases policy <;> rfl

theorem toInt_ofInt24 {x : Int} (h : -2 ^ 23 ≤ x ∧ x < 2 ^ 23) : (BitVec.ofInt 24 x).toInt = x :=
  BitVec.toInt_ofInt_eq_self (by decide) h.1 h.2

/-- The low 24 bits of a value are congruent to it. -/
theorem toInt_ofInt24_emod (x : Int) : ((BitVec.ofInt 24 x).toInt - x) % 2 ^ 24 = 0 := by
  rw [BitVec.toInt_ofInt, Int.bmod_def]
  omega

/-- Settles O31: scaling is a floor division of the half-shifted accumulator; the clip by the two bounds. -/
theorem scalingRoundsAndClips : Obligations.ScalingRoundsAndClips := by
  refine ⟨fun _ => rfl, fun shift acc h => ?_, fun policy x => ⟨fun h h' => ?_, fun h => ?_, fun h => ?_, ?_⟩⟩
  · have pos : (0 : Int) < 2 ^ shift := by positivity
    rw [scale, if_neg (by omega)]
    exact ⟨Int.mul_ediv_self_le pos.ne', Int.lt_mul_ediv_self_add pos |>.trans_eq (by ring)⟩
  · rw [clip_within ⟨h, by omega⟩]
    exact ⟨toInt_ofInt24 ⟨h, by omega⟩, rfl⟩
  · rw [clip_beyond (.inr (by omega)), clip_beyond (.inr (by omega))]
    dsimp only
    rw [if_pos (by omega)]
    exact ⟨toInt_ofInt24 (by omega), rfl⟩
  · rw [clip_beyond (.inl h), clip_beyond (.inl h)]
    dsimp only
    rw [if_neg (by omega)]
    exact ⟨toInt_ofInt24 (by omega), rfl⟩
  · have low : (clip .wrap x).1 = BitVec.ofInt 24 x := by
      unfold clip
      split <;> rfl
    rw [low]
    exact toInt_ofInt24_emod x

end Sys2Proof.Machine
end

section
/-! PROOFS. DISPATCH_START (R64 to R66): the lane served, the snapshot and the holds (O24). -/

namespace Sys2Proof.Machine

/-- The lanes in the order of service, the last-served one last (R64). -/
theorem State.nextLane_eq_some {s : State} {i : Fin 4}
    (before : ∀ j : Fin 4, j < i → (s.lane (s.engine.lastServed + 1 + j)).fifo = [])
    (here : (s.lane (s.engine.lastServed + 1 + i)).fifo ≠ []) :
    s.nextLane = some (s.engine.lastServed + 1 + i) := by
  have order : (List.range 4).map (fun i => s.engine.lastServed + Fin.ofNat 4 (i + 1)) =
      (List.finRange 4).map fun j => s.engine.lastServed + 1 + j := by
    generalize s.engine.lastServed = l
    revert l
    decide
  rw [State.nextLane, order, List.find?_map, Option.map_eq_some_iff]
  refine ⟨i, List.find?_eq_some_iff_getElem.2 ⟨by simpa using here, i.val, by simp, by simp, fun j hj => ?_⟩, rfl⟩
  have empty := before ⟨j, by omega⟩ hj
  simp [empty]

/-- Holds set or cleared change the banks alone. -/
theorem State.setHolds_frame (s : State) (es : List SnapEntry) (h : Bool) :
    s.setHolds es h = { s with banks := (s.setHolds es h).banks } := by
  unfold State.setHolds
  induction es.filterMap (·.bank) generalizing s with
  | nil => rfl
  | cons b bs ih => rw [List.foldl_cons, ih]; rfl

/-- The banks after holds were set depend on the banks before alone. -/
theorem State.setHolds_banks_congr {s t : State} (es : List SnapEntry) (h : Bool) (e : s.banks = t.banks) :
    (s.setHolds es h).banks = (t.setHolds es h).banks := by
  refine Vector.ext fun i hi => ?_
  have same : s.bank ⟨i, hi⟩ = t.bank ⟨i, hi⟩ := by simp [State.bank, e]
  exact ((s.setHolds_bank es h ⟨i, hi⟩).trans (by rw [same])).trans (t.setHolds_bank es h ⟨i, hi⟩).symm

/-- A dispatch start writes the lane, the holds, the last-served lane and the dispatch record. -/
theorem State.startDispatch_eq (s : State) (l : LaneId) (x : FifoEntry) :
    s.startDispatch l x = { s with
      lanes := s.lanes.set l.val (s.lane l).popHead
      banks := (s.setHolds (s.snapshot l x.slot) true).banks
      engine := { s.engine with lastServed := l, dispatch := some ⟨l, x, s.snapshot l x.slot, []⟩ } } := by
  unfold State.startDispatch
  dsimp only
  rw [State.setHolds_frame, State.setHolds_banks_congr _ _ (State.modLane_banks s l Lane.popHead)]
  rfl

/-- Settles O24: the lane found is served, and its start writes the snapshot of the statement. -/
theorem dispatchStartTakesTheNextLane : Obligations.DispatchStartTakesTheNextLane := by
  intro s i x rest idle l before head entry es
  have found : s.nextLane = some l := State.nextLane_eq_some before (by rw [head]; exact List.cons_ne_nil _ _)
  have started : exec .dispatchStart s = .next (s.startDispatch l x) := by
    show execDispatchStart s = _
    rw [execDispatchStart, idle, found]
    dsimp only
    rw [head]
  have entries : s.snapEntry = entry := by
    funext c
    by_cases due : (s.chan c).phase + 1 = (s.chan c).config.decimation
    · cases active : (s.chan c).active <;> simp [State.snapEntry, entry, due, active]
    · simp [State.snapEntry, entry, due]
  have snapshot : s.snapshot l x.slot = es := by
    rw [State.snapshot, entries]
    refine congrArg (List.map entry) (List.filter_congr fun c _ => ?_)
    rw [Bool.eq_iff_iff]
    simp [and_assoc]
  have popped : (s.lane l).popHead =
      { s.lane l with fifo := rest, latch := (s.lane l).latch && !rest.isEmpty } := by
    rw [Lane.popHead, head]
    rfl
  refine ⟨(s.setHolds es true).banks, fun b => ?_, ?_⟩
  · refine (s.setHolds_bank es true b).trans ?_
    by_cases noted : ∃ e ∈ es, e.bank = some b
    · have any : es.any (fun e => e.bank == some b) = true := by simpa using noted
      rw [if_pos noted, any, Bool.or_true]
    · have any : es.any (fun e => e.bank == some b) = false := by simpa using noted
      rw [if_neg noted, any, Bool.or_false]
  · rw [started, State.startDispatch_eq, snapshot, popped]

end Sys2Proof.Machine
end

section
/-! PROOFS. What a dispatch completion works on (R63, R67, R68): the guard, the history words found bad, the banks
found damaged, and each of the ways in which one entry is settled. -/

namespace Sys2Proof.Machine

theorem exec_dispatchCompletion {s : State} {d : Dispatch} (choice : CompletionChoice)
    (h : s.engine.dispatch = some d) : exec (.dispatchCompletion choice) s = .next (s.complete d choice) := by
  show execDispatchCompletion choice s = _
  rw [execDispatchCompletion, h]

/-! ## The guard (R68) -/

theorem State.passes_iff {s : State} {e : SnapEntry} : s.passes e = true ↔ guardPasses s e := by
  simp [State.passes, guardPasses, ChanState.inRun_iff, and_assoc]

theorem guardPasses.inRun {s : State} {e : SnapEntry} (h : guardPasses s e) :
    (s.chan e.channel).state.inRun = true := ChanState.inRun_iff.2 h.2.1

theorem State.passes_congr {s u : State} {e : SnapEntry} (h : u.chan e.channel = s.chan e.channel) :
    u.passes e = s.passes e := by
  simp [State.passes, h]

/-- The computation of an entry leaves what the guard reads. -/
theorem State.passes_workedEntry (s u : State) (d : Dispatch) (e : SnapEntry) :
    u.passes (s.workedEntry d e) = u.passes e := by
  unfold State.workedEntry
  split <;> rfl

/-- With one entry a channel, the channel tells the entry. -/
theorem entry_unique {d : Dispatch} {e x : SnapEntry} (hn : (d.snapshot.map (·.channel)).Nodup)
    (he : e ∈ d.snapshot) (hx : x ∈ d.snapshot) (h : x.channel = e.channel) : x = e :=
  List.inj_on_of_nodup_map hn hx he h

/-! ## History words found bad (R77, R79) -/

/-- The history read `k` of channel `c` is one that the dispatch makes and that the operand names. -/
def State.foundBad (s : State) (d : Dispatch) (bad : List (ChanId × Fin 256)) (c : ChanId) (k : Nat) : Bool :=
  s.readsHistory d c k && bad.any fun p => p.1 == c && p.2.val == k

theorem State.foundBad_iff {s : State} {d : Dispatch} {bad : List (ChanId × Fin 256)} {c : ChanId} {k : Nat} :
    s.foundBad d bad c k = true ↔ s.readsHistory d c k = true ∧ ∃ i : Fin 256, (c, i) ∈ bad ∧ i.val = k := by
  simp [State.foundBad]

theorem State.readsHistory_congr {s t : State} (h : t.banks = s.banks) (d : Dispatch) (c : ChanId) (k : Nat) :
    t.readsHistory d c k = s.readsHistory d c k := by
  have same : t.bank = s.bank := funext fun b => by simp [State.bank, h]
  simp only [State.readsHistory, same]

/-- With one entry a channel, its history reads are those of its entry. -/
theorem State.readsHistory_iff {s : State} {d : Dispatch} {e : SnapEntry} {k : Nat}
    (hn : (d.snapshot.map (·.channel)).Nodup) (he : e ∈ d.snapshot) :
    s.readsHistory d e.channel k = true ↔ ∃ b, e.reads = some b ∧ 0 < k ∧ k < e.terms (s.bank b) := by
  simp only [State.readsHistory, List.any_eq_true, Bool.and_eq_true, beq_iff_eq]
  constructor
  · rintro ⟨x, hx, hc, hr⟩
    obtain rfl := entry_unique hn he hx hc
    split at hr
    · exact absurd hr Bool.false_ne_true
    · next b hb => exact ⟨b, hb, by simpa using hr⟩
  · rintro ⟨b, hb, hk⟩
    exact ⟨e, he, rfl, by rw [hb]; simpa using hk⟩

theorem spoil_spoil (w : StoredWord) : spoil (spoil w) = spoil w := rfl

theorem State.foundBad_congr {s t : State} (h : t.banks = s.banks) (d : Dispatch) (bad : List (ChanId × Fin 256))
    (c : ChanId) (k : Nat) : t.foundBad d bad c k = s.foundBad d bad c k := by
  rw [State.foundBad, State.readsHistory_congr h, State.foundBad]

theorem State.foundBad_cons (s : State) (d : Dispatch) (p : ChanId × Fin 256) (bad : List (ChanId × Fin 256))
    (c : ChanId) (k : Nat) :
    s.foundBad d (p :: bad) c k =
      (s.readsHistory d p.1 p.2.val && (p.1 == c && p.2.val == k) || s.foundBad d bad c k) := by
  unfold State.foundBad
  rw [List.any_cons, Bool.and_or_distrib_left]
  by_cases h : p.1 = c ∧ p.2.val = k
  · rw [h.1, h.2]
  · have differs : (p.1 == c && p.2.val == k) = false := by simpa using h
    rw [differs, Bool.and_false, Bool.and_false]

/-- A dispatch reads no history entry at place 0: that is its own sample. -/
theorem State.readsHistory_pos {s : State} {d : Dispatch} {c : ChanId} {k : Nat}
    (h : s.readsHistory d c k = true) : 0 < k := by
  simp only [State.readsHistory, List.any_eq_true, Bool.and_eq_true] at h
  obtain ⟨x, -, -, hr⟩ := h
  split at hr
  · exact absurd hr Bool.false_ne_true
  · exact (by simpa using hr : 0 < k ∧ _).1

/-- One history word spoiled. -/
theorem State.spoilRing_getElem? (s : State) (c j : ChanId) {k : Nat} (hk : 0 < k) (i : Nat) :
    ((s.modRing c fun r => r.modify (k - 1) spoil).ring j)[i]? =
      ((s.ring j)[i]?).map fun w => if c == j && k == i + 1 then spoil w else w := by
  rw [State.modRing_ring]
  by_cases hc : j = c
  · subst hc
    have place : k - 1 = i ↔ k = i + 1 := by omega
    simp [List.getElem?_modify, place]
  · simp [hc, Ne.symm hc]

/-- A ring after the history reads that the operand names: those that the dispatch makes are spoiled. -/
theorem State.upsetHistory_getElem? (s : State) (d : Dispatch) (bad : List (ChanId × Fin 256)) (c : ChanId)
    (i : Nat) :
    ((s.upsetHistory d bad).ring c)[i]? =
      ((s.ring c)[i]?).map fun w => if s.foundBad d bad c (i + 1) then spoil w else w := by
  induction bad generalizing s with
  | nil => simp [State.upsetHistory, State.foundBad]
  | cons p bad ih =>
    show ((State.upsetHistory (if s.readsHistory d p.1 p.2.val then
      s.modRing p.1 fun r => r.modify (p.2.val - 1) spoil else s) d bad).ring c)[i]? = _
    rw [ih, State.foundBad_cons]
    by_cases reads : s.readsHistory d p.1 p.2.val = true
    · rw [if_pos reads, State.foundBad_congr (State.modRing_banks s _ _),
        State.spoilRing_getElem? s _ _ (State.readsHistory_pos reads), Option.map_map, reads, Bool.true_and]
      refine congrArg (Option.map · _) (funext fun w => ?_)
      by_cases here : (p.1 == c && p.2.val == i + 1) = true <;>
        by_cases later : s.foundBad d bad c (i + 1) = true <;> simp [here, later, spoil_spoil]
    · rw [if_neg reads, Bool.eq_false_iff.2 reads, Bool.false_and, Bool.false_or]

theorem State.upsetHistory_length (s : State) (d : Dispatch) (bad : List (ChanId × Fin 256)) (c : ChanId) :
    ((s.upsetHistory d bad).ring c).length = (s.ring c).length := by
  unfold State.upsetHistory
  induction bad generalizing s with
  | nil => rfl
  | cons p bad ih =>
    rw [List.foldl_cons, ih]
    split
    · rw [State.modRing_ring]
      split
      · next h => rw [h, List.length_modify]
      · rfl
    · rfl

/-- A ring none of whose entries is read and named stays. -/
theorem State.upsetHistory_ring {s : State} {d : Dispatch} {bad : List (ChanId × Fin 256)} {c : ChanId}
    (h : ∀ k, s.foundBad d bad c k = false) : (s.upsetHistory d bad).ring c = s.ring c := by
  refine List.ext_getElem? fun i => ?_
  rw [State.upsetHistory_getElem?, h]
  simp

/-! ## Banks found damaged (R40) -/

theorem State.damageFound_bank (s : State) (d : Dispatch) (b : BankId) :
    (s.damageFound d).bank b =
      if (∃ e ∈ d.snapshot, s.workEntry d e = .failed (.bank b)) ∧ (s.bank b).state = .sealed then
        { s.bank b with state := .damaged } else s.bank b := by
  unfold State.damageFound
  generalize d.snapshot = es
  suffices h : ∀ t : State, (es.foldl (fun t e =>
      match s.workEntry d e with
      | .failed (.bank b) => t.damageBank b
      | .failed .history => t
      | .nothing => t
      | .computed _ => t) t).bank b =
      if (∃ e ∈ es, s.workEntry d e = .failed (.bank b)) ∧ (t.bank b).state = .sealed then
        { t.bank b with state := .damaged } else t.bank b from h s
  intro t
  induction es generalizing t with
  | nil => simp
  | cons e es ih =>
    rw [List.foldl_cons, ih]
    split
    · next x hx =>
      rw [State.damageBank_bank]
      by_cases hb : b = x
      · subst hb
        by_cases hs : (t.bank b).state = .sealed <;> simp [hx, hs]
      · simp [hx, hb, Ne.symm hb]
    all_goals next hx => simp [hx]

/-! ## The state worked on -/

section
variable (s : State) (d : Dispatch) (choice : CompletionChoice)

@[simp] theorem State.worked_chan (c : ChanId) : (s.worked d choice).chan c = s.chan c := by simp [State.worked]
@[simp] theorem State.worked_deliv (c : ChanId) : (s.worked d choice).deliv c = s.deliv c := by simp [State.worked]
@[simp] theorem State.worked_watch (w : WatchId) : (s.worked d choice).watch w = s.watch w := by simp [State.worked]
@[simp] theorem State.worked_resend : (s.worked d choice).resend = s.resend := by simp [State.worked]
@[simp] theorem State.worked_stopRequests : (s.worked d choice).stopRequests = s.stopRequests := by simp [State.worked]
theorem State.worked_ring (c : ChanId) :
    (s.worked d choice).ring c = (s.upsetHistory d choice.badHistory).ring c := by simp [State.worked]

/-- Of the banks only the state differs, and only from SEALED to DAMAGED (R40). -/
theorem State.worked_bank (b : BankId) :
    (s.worked d choice).bank b = { s.bank b with state := ((s.worked d choice).bank b).state } ∧
      (((s.worked d choice).bank b).state = (s.bank b).state ∨
        (s.bank b).state = .sealed ∧ ((s.worked d choice).bank b).state = .damaged) := by
  rw [State.worked, State.damageFound_bank, State.upsetHistory_bank]
  split
  · next h => exact ⟨rfl, .inr ⟨h.2, rfl⟩⟩
  · exact ⟨rfl, .inl rfl⟩

end

/-! ## The ways in which an entry is settled (R68, R69, R71, R80) -/

theorem State.closeIfStopping_open {s : State} {c : ChanId} (h : (s.chan c).state ≠ .stopping) :
    s.closeIfStopping c = (s, []) := if_neg h

theorem State.closeIfStopping_closes {s : State} {c : ChanId} (h : (s.chan c).state = .stopping) :
    Closes c (s.chan c) (s.deliv c) ((s.closeIfStopping c).1.chan c) ((s.closeIfStopping c).1.deliv c)
      (s.closeIfStopping c).2 := by
  rw [State.closeIfStopping, if_pos h]
  exact s.closeBatch_closes c h

theorem State.completeEntry_failing {s : State} {e : SnapEntry} (choice : CompletionChoice) (d : Dispatch)
    (h : s.passes e = false) : s.completeEntry choice d e = s.closeIfStopping e.channel :=
  if_neg (by simp [h])

theorem State.completeEntry_faulted {s : State} {e : SnapEntry} {cause : FaultCause} (choice : CompletionChoice)
    (d : Dispatch) (h : s.passes e = true) (hf : e.fault = some cause) :
    s.completeEntry choice d e = s.faultClaim e.channel cause := by
  rw [State.completeEntry, if_pos h, State.settleEntry, hf]

theorem State.completeEntry_passing {s : State} {e : SnapEntry} (choice : CompletionChoice) (d : Dispatch)
    (h : s.passes e = true) (hf : e.fault = none) :
    s.completeEntry choice d e = s.settlePassing choice d e := by
  rw [State.completeEntry, if_pos h, State.settleEntry, hf]

/-- Between outputs the sample is taken, and the close made of a STOPPING channel. -/
theorem State.settlePassing_between {s : State} {e : SnapEntry} (choice : CompletionChoice) (d : Dispatch)
    (h : (s.chan e.channel).phase + 1 ≠ (s.chan e.channel).config.decimation) :
    s.settlePassing choice d e = (s.takeSample e.channel d.sample).closeIfStopping e.channel := by
  rw [State.settlePassing, if_neg h]
  rfl

/-- At an output it is handed on between the two. -/
theorem State.settlePassing_output {s : State} {e : SnapEntry} {d : Dispatch} {r : Result}
    (choice : CompletionChoice) (h : (s.chan e.channel).phase + 1 = (s.chan e.channel).config.decimation)
    (hr : d.results.find? (fun r => r.channel == e.channel) = some r) :
    s.settlePassing choice d e =
      Raising.andThen ((s.takeSample e.channel d.sample).handOn e.channel r (s.notedTaps e) choice)
        fun s => s.closeIfStopping e.channel := by
  rw [State.settlePassing, if_pos h, hr]

/-- The record of a channel that takes a sample (R69, R72). -/
theorem State.takeSample_chan_same (s : State) (c : ChanId) (x : FifoEntry) :
    (s.takeSample c x).chan c = { s.chan c with
      fill := fillAfter (s.chan c).fill
      flags := { (s.chan c).flags with gap := (s.chan c).flags.gap || x.gapMark }
      counters := { (s.chan c).counters with
        gapEvents := if x.gapMark then inc16 (s.chan c).counters.gapEvents
          else (s.chan c).counters.gapEvents }
      phase := if (s.chan c).phase + 1 = (s.chan c).config.decimation then 0 else (s.chan c).phase + 1 } :=
  State.modChan_chan_same _ c _

theorem State.takeSample_ring_same (s : State) (c : ChanId) (x : FifoEntry) :
    (s.takeSample c x).ring c = (⟨x.value, true⟩ :: s.ring c).take 256 := by
  simp [State.takeSample, Config.ringSize]

end Sys2Proof.Machine
end

section
/-! PROOFS. A dispatch completion seen from an entry that passes the guard and is not output due (O27). -/

namespace Sys2Proof.Machine

/-- An entry that reads no bank has nothing computed for it. -/
theorem State.workEntry_unread {s : State} {d : Dispatch} {e : SnapEntry} (h : e.reads = none) :
    s.workEntry d e = .nothing := by
  rw [State.workEntry, h]

theorem State.workedEntry_unread {s : State} {d : Dispatch} {e : SnapEntry} (h : e.reads = none) :
    s.workedEntry d e = e := by
  rw [State.workedEntry, State.workEntry_unread h]

/-- The ring of a channel whose entry reads no bank stays. -/
theorem State.upsetHistory_ring_unread {s : State} {d : Dispatch} {e : SnapEntry} (bad : List (ChanId × Fin 256))
    (hn : (d.snapshot.map (·.channel)).Nodup) (he : e ∈ d.snapshot) (h : e.reads = none) :
    (s.upsetHistory d bad).ring e.channel = s.ring e.channel := by
  refine State.upsetHistory_ring fun k => Bool.eq_false_iff.2 fun found => ?_
  obtain ⟨b, hb, -⟩ := (State.readsHistory_iff hn he).1 (State.foundBad_iff.1 found).1
  exact nomatch h.symm.trans hb

/-- Settles O27: the entry takes the sample in a state that agrees with the one before on its channel, and the close
of a STOPPING channel follows. -/
theorem completionAppendsTheSample : Obligations.CompletionAppendsTheSample := by
  intro s d e choice hd hn he hg due fault phase c ch
  have unread : e.reads = none := by rw [SnapEntry.reads, due]; rfl
  obtain ⟨u, ns, same, hchan, hdeliv, hring, hwatch, hresend, hstops, harb, hsub, hone⟩ :=
    s.complete_focus d choice e hn he
  rw [State.workedEntry_unread unread] at hchan hdeliv hring hwatch hresend hstops hsub hone
  have chan_u : u.chan c = s.chan c := same.chan.trans (s.worked_chan d choice c)
  have deliv_u : u.deliv c = s.deliv c := same.deliv.trans (s.worked_deliv d choice c)
  have ring_u : u.ring c = s.ring c :=
    (same.ring.trans (s.worked_ring d choice c)).trans (State.upsetHistory_ring_unread _ hn he unread)
  have settled : u.completeEntry choice ((s.upsetHistory d choice.badHistory).workDispatch d) e =
      (u.takeSample c d.sample).closeIfStopping c := by
    rw [State.completeEntry_passing _ _ ((State.passes_congr chan_u).trans (State.passes_iff.2 hg)) fault]
    exact State.settlePassing_between _ _ (by rw [chan_u]; exact phase)
  rw [settled] at hchan hdeliv hring hwatch hresend hstops hsub hone
  have sampled : (u.takeSample c d.sample).chan c = ch := by
    rw [State.takeSample_chan_same, chan_u, if_neg phase]
    rfl
  have watch_u (w : WatchId) := same.watches w
  simp only [State.worked_watch] at watch_u
  refine ⟨_, ns, _, exec_dispatchCompletion choice hd, ?_, fun b => ?_, ?_, fun w hw => ?_, fun run => ?_,
    fun stop => ?_, harb, hsub, fun single => ?_⟩
  · rw [hring, State.closeIfStopping_ring, State.takeSample_ring_same, ring_u]
  · rw [hresend, State.closeIfStopping_resend, State.takeSample_resend, same.resend, State.worked_resend]
  · rw [hstops, State.closeIfStopping_stopRequests, State.takeSample_stopRequests, same.stops,
      State.worked_stopRequests]
  · have kept : ((u.takeSample c d.sample).closeIfStopping c).1.watch w = u.watch w := by simp
    rw [hwatch w (by rw [kept, (watch_u w).1]; exact hw), kept, (watch_u w).2 hw]
  · have running : ((u.takeSample c d.sample).chan c).state ≠ .stopping := by
      rw [sampled]
      exact fun h => nomatch run.symm.trans h
    rw [hchan, hdeliv, State.closeIfStopping_open running]
    exact ⟨sampled, deliv_u, rfl⟩
  · have closed := State.closeIfStopping_closes (s := u.takeSample c d.sample) (c := c) (by rw [sampled]; exact stop)
    rwa [sampled, State.takeSample_deliv, deliv_u, ← hchan, ← hdeliv] at closed
  · obtain ⟨rfl, rfl, refs⟩ := hone single
    refine ⟨rfl, fun b => ?_⟩
    rw [refs, State.closeIfStopping_bank, State.takeSample_bank, (s.worked_bank d choice b).1]

end Sys2Proof.Machine
end

section
/-! PROOFS. A dispatch completion seen from an entry that passes the guard and has a fault cause, set before or found at
its first bad word (O29). -/

namespace Sys2Proof.Machine

/-! ## The first bad word (R77) -/

/-- What stops a computation at term `k`: its coefficient is checked first, then its history entry. -/
def ReadFailure.At (f : ReadFailure) (c x : Nat → StoredWord) (k : Nat) : Prop :=
  f = .coefficient ∧ (c k).markGood = false ∨
    f = .history ∧ (c k).markGood = true ∧ (x k).markGood = false

/-- A computation stops at the first term whose words are not both good. -/
theorem accumulate_stops {f : ReadFailure} (g : ChanConfig) {c x : Nat → StoredWord} {m : Nat} (n k : Nat)
    (acc : Int × Bool) (hk : k ≤ m) (hm : m < k + n)
    (good : ∀ j, k ≤ j → j < m → (c j).markGood = true ∧ (x j).markGood = true) (bad : f.At c x m) :
    accumulate g c x n k acc = .error f := by
  induction n generalizing k acc with
  | zero => omega
  | succ n ih =>
    rw [accumulate]
    by_cases here : k = m
    · subst here
      rcases bad with ⟨rfl, hc⟩ | ⟨rfl, hc, hx⟩
      · rw [hc]; rfl
      · rw [hc, hx]; rfl
    · obtain ⟨hc, hx⟩ := good k le_rfl (by omega)
      rw [hc, hx]
      exact ih (k + 1) _ (by omega) (by omega) fun j h1 h2 => good j (by omega) h2

/-- The fault cause that a failed read gives (R77). -/
def ReadFailure.cause (b : BankId) : ReadFailure → FaultCause
  | .coefficient => .bank b
  | .history => .history

theorem SnapEntry.reads_iff {e : SnapEntry} {b : BankId} :
    e.reads = some b ↔ e.fault = none ∧ e.due = true ∧ e.bank = some b := by
  simp [SnapEntry.reads, and_assoc, and_left_comm]

theorem SnapEntry.reads_faulted {e : SnapEntry} {cause : FaultCause} (h : e.fault = some cause) :
    e.reads = none := by
  simp [SnapEntry.reads, h]

theorem State.workEntry_failed {s : State} {d : Dispatch} {e : SnapEntry} {b : BankId} {k : Nat} {f : ReadFailure}
    (reads : e.reads = some b) (hk : k < e.terms (s.bank b))
    (good : ∀ j, j < k → (s.coeff (s.bank b) j).markGood = true ∧ (s.sampleAt d e.channel j).markGood = true)
    (bad : f.At (s.coeff (s.bank b)) (s.sampleAt d e.channel) k) :
    s.workEntry d e = .failed (f.cause b) := by
  have stops : s.accumulateFor d e (s.bank b) (e.terms (s.bank b)) = .error f :=
    accumulate_stops _ _ 0 _ (Nat.zero_le _) (by omega) (fun j _ => good j) bad
  rw [State.workEntry, reads]
  dsimp only
  rw [stops]
  cases f <;> rfl

theorem State.upsetHistory_coeff (s : State) (d : Dispatch) (bad : List (ChanId × Fin 256)) (b : Bank) (k : Nat) :
    (s.upsetHistory d bad).coeff b k = s.coeff b k := by
  rw [State.coeff, State.upsetHistory_coeffMem, State.coeff]

/-- History entry `k` of a channel is bad: its ring has it, and holds it bad or the operand names it. -/
def State.EntryBad (s : State) (bad : List (ChanId × Fin 256)) (c : ChanId) (k : Nat) : Prop :=
  1 ≤ k ∧ k ≤ (s.ring c).length ∧
    (((s.ring c).getD (k - 1) Config.unwritten).markGood = false ∨ ∃ i : Fin 256, (c, i) ∈ bad ∧ i.val = k)

/-- A history word that the dispatch reads is good unless its entry is bad. -/
theorem State.upsetHistory_sampleAt_bad {s : State} {d : Dispatch} {e : SnapEntry} {b : BankId} {k : Nat}
    {bad : List (ChanId × Fin 256)} (hn : (d.snapshot.map (·.channel)).Nodup) (he : e ∈ d.snapshot)
    (reads : e.reads = some b) (hk : k < e.terms (s.bank b)) :
    ((s.upsetHistory d bad).sampleAt d e.channel k).markGood = false ↔ s.EntryBad bad e.channel k := by
  unfold State.EntryBad
  cases k with
  | zero => simp [State.sampleAt]
  | succ k =>
    have found : s.foundBad d bad e.channel (k + 1) = true ↔
        ∃ i : Fin 256, (e.channel, i) ∈ bad ∧ i.val = k + 1 :=
      State.foundBad_iff.trans
        (and_iff_right ((State.readsHistory_iff hn he).2 ⟨b, reads, Nat.succ_pos k, hk⟩))
    rw [State.sampleAt, if_neg (Nat.succ_ne_zero k), Nat.add_sub_cancel, List.getD_eq_getElem?_getD,
      State.upsetHistory_getElem?, List.getD_eq_getElem?_getD, ← found]
    cases entry : (s.ring e.channel)[k]? with
    | none =>
      have beyond := List.getElem?_eq_none_iff.1 entry
      simp only [Option.map_none, Option.getD_none, Config.unwritten]
      exact ⟨(nomatch ·), fun h => absurd h.2.1 (by omega)⟩
    | some w =>
      obtain ⟨inside, -⟩ := List.getElem?_eq_some_iff.1 entry
      by_cases named : s.foundBad d bad e.channel (k + 1) = true <;>
        simp [named, spoil, Nat.succ_le_iff.2 inside]

/-- The first bad word fails the computation, the coefficient of each term checked before its history entry. -/
theorem State.workEntry_found {s : State} {d : Dispatch} {e : SnapEntry} {b : BankId} {k : Nat}
    {cause : FaultCause} {bad : List (ChanId × Fin 256)} (hn : (d.snapshot.map (·.channel)).Nodup)
    (he : e ∈ d.snapshot) (reads : e.reads = some b) (hk : k < e.terms (s.bank b))
    (good : ∀ j, j < k → (s.coeff (s.bank b) j).markGood = true ∧ ¬ s.EntryBad bad e.channel j)
    (found : cause = .bank b ∧ (s.coeff (s.bank b) k).markGood = false ∨
      cause = .history ∧ (s.coeff (s.bank b) k).markGood = true ∧ s.EntryBad bad e.channel k) :
    (s.upsetHistory d bad).workEntry d e = .failed cause := by
  have sample {j : Nat} (hj : j < e.terms (s.bank b)) :
      ((s.upsetHistory d bad).sampleAt d e.channel j).markGood = false ↔ s.EntryBad bad e.channel j :=
    State.upsetHistory_sampleAt_bad hn he reads hj
  have coeff (j : Nat) : (s.upsetHistory d bad).coeff ((s.upsetHistory d bad).bank b) j = s.coeff (s.bank b) j := by
    rw [State.upsetHistory_bank, State.upsetHistory_coeff]
  have place : k < e.terms ((s.upsetHistory d bad).bank b) := by rw [State.upsetHistory_bank]; exact hk
  have earlier (j : Nat) (hj : j < k) :
      ((s.upsetHistory d bad).coeff ((s.upsetHistory d bad).bank b) j).markGood = true ∧
        ((s.upsetHistory d bad).sampleAt d e.channel j).markGood = true := by
    rw [coeff]
    exact ⟨(good j hj).1, Bool.not_eq_false _ ▸ mt (sample (hj.trans hk)).1 (good j hj).2⟩
  rcases found with ⟨rfl, hc⟩ | ⟨rfl, hc, hx⟩
  · exact State.workEntry_failed (f := .coefficient) reads place earlier (.inl ⟨rfl, by rw [coeff]; exact hc⟩)
  · exact State.workEntry_failed (f := .history) reads place earlier
      (.inr ⟨rfl, by rw [coeff]; exact hc, (sample hk).2 hx⟩)

/-- The history words of an entry that are found bad are those that it reads and that the operand names. -/
theorem State.foundBad_entry {s : State} {d : Dispatch} {e : SnapEntry} {k : Nat} {bad : List (ChanId × Fin 256)}
    (hn : (d.snapshot.map (·.channel)).Nodup) (he : e ∈ d.snapshot) :
    s.foundBad d bad e.channel (k + 1) = true ↔
      (∃ b, e.fault = none ∧ e.due = true ∧ e.bank = some b ∧ k + 1 < e.terms (s.bank b)) ∧
        ∃ i : Fin 256, (e.channel, i) ∈ bad ∧ i.val = k + 1 := by
  rw [State.foundBad_iff, State.readsHistory_iff hn he]
  refine and_congr_left fun _ => exists_congr fun b => ?_
  rw [SnapEntry.reads_iff]
  exact ⟨fun ⟨⟨fault, due, bank⟩, _, term⟩ => ⟨fault, due, bank, term⟩,
    fun ⟨fault, due, bank, term⟩ => ⟨⟨fault, due, bank⟩, Nat.succ_pos k, term⟩⟩

/-! ## The end of the run (R22, R111) -/

theorem State.faultClaim_inRun {s : State} {c : ChanId} (cause : FaultCause)
    (h : (s.chan c).state.inRun = true) :
    s.faultClaim c cause = (s.endRun c .faulted .faulted, [.memoryFault c cause]) := if_pos h

section
variable (s : State) (c : ChanId) (st : ChanState) (ds : DoneStatus)

theorem State.endRun_chan_same : (s.endRun c st ds).chan c = { s.chan c with
    state := st, stopCause := none, staged := none, opSlot := (s.chan c).opSlot.finish ds } := by
  rw [State.endRun_eq]
  simp [State.chan]

theorem State.endRun_deliv_same : (s.endRun c st ds).deliv c = { s.deliv c with
    slots := Vector.replicate 4 .free, pendingLost := 0, readyOrder := [], inflightOrder := []
    drainWatch := false } := by
  rw [State.endRun_eq]
  simp [State.deliv]

theorem State.endRun_resend : (s.endRun c st ds).resend = s.resend.filter fun e => e.1 != c := by
  rw [State.endRun_eq]

/-- The staged bank is released. -/
theorem State.endRun_bank (b : BankId) : (s.endRun c st ds).bank b = { s.bank b with
    refs := (s.bank b).refs - if (s.chan c).staged = some b then 1 else 0 } := by
  rw [State.endRun_eq]
  exact s.dropRef?_bank _ b

end

/-! ## The banks after a completion (R39, R40) -/

/-- Of a bank a completion changes the hold, the reference count, and SEALED to DAMAGED where a bad coefficient was
found. -/
theorem State.complete_bank (s : State) (d : Dispatch) (choice : CompletionChoice) (b : BankId) :
    (s.complete d choice).bank b = { s.bank b with
      state := ((s.worked d choice).bank b).state
      refs := ((s.complete d choice).bank b).refs
      hold := (s.bank b).hold && !(d.snapshot.any fun e => e.bank == some b) } := by
  let all := State.settleAll choice ((s.upsetHistory d choice.badHistory).workDispatch d)
    ((s.upsetHistory d choice.badHistory).workDispatch d).snapshot (s.worked d choice)
  have ended : (s.complete d choice).bank b = (all.1.setHolds d.snapshot false).bank b :=
    State.raiseAll_bank _ _ b
  have noted : (if ∃ e ∈ d.snapshot, e.bank = some b then false else (s.bank b).hold) =
      ((s.bank b).hold && !(d.snapshot.any fun e => e.bank == some b)) := by
    by_cases h : ∃ e ∈ d.snapshot, e.bank = some b
    · have any : d.snapshot.any (fun e => e.bank == some b) = true := by simpa using h
      rw [if_pos h, any, Bool.not_true, Bool.and_false]
    · have any : d.snapshot.any (fun e => e.bank == some b) = false := by simpa using h
      rw [if_neg h, any, Bool.not_false, Bool.and_true]
  rw [ended, State.setHolds_bank, State.settleAll_sameBanks choice _ _ _ b, (s.worked_bank d choice b).1]
  dsimp only
  rw [noted]

/-! ## The obligation -/

/-- An entry with a fault cause after its computation: the cause was set, and nothing is computed, or the computation
failed with it. -/
theorem State.workedEntry_fault {s : State} {d : Dispatch} {e : SnapEntry} {cause : FaultCause}
    (h : e.fault = some cause ∨ s.workEntry d e = .failed cause) : (s.workedEntry d e).fault = some cause := by
  rcases h with h | h
  · rw [State.workedEntry_unread (SnapEntry.reads_faulted h), h]
  · rw [State.workedEntry, h]

/-- Settles O29: the entry is found to have its cause, its channel's run is ended, and the words found bad stay so. -/
theorem completionFaultsTheChannel : Obligations.CompletionFaultsTheChannel := by
  intro s d e cause choice hd hn he hg c named among read badEntry found hcause
  have failed {b : BankId} (h : found b) :
      (s.upsetHistory d choice.badHistory).workEntry d e = .failed cause := by
    obtain ⟨k, ⟨fault, due, bank, term⟩, good, bad⟩ := h
    exact State.workEntry_found hn he (SnapEntry.reads_iff.2 ⟨fault, due, bank⟩) term good bad
  have settled : e.fault = some cause ∨ (s.upsetHistory d choice.badHistory).workEntry d e = .failed cause :=
    hcause.imp_right fun ⟨_, h⟩ => failed h
  obtain ⟨u, ns, same, hchan, hdeliv, hring, hwatch, hresend, hstops, harb, hsub, hone⟩ :=
    s.complete_focus d choice e hn he
  have chan_u : u.chan c = s.chan c := same.chan.trans (s.worked_chan d choice c)
  have ended : u.completeEntry choice ((s.upsetHistory d choice.badHistory).workDispatch d)
      ((s.upsetHistory d choice.badHistory).workedEntry d e) =
        (u.endRun c .faulted .faulted, [.memoryFault c cause]) := by
    have passes : u.passes ((s.upsetHistory d choice.badHistory).workedEntry d e) = true := by
      rw [State.passes_workedEntry, State.passes_congr chan_u]
      exact State.passes_iff.2 hg
    rw [State.completeEntry_faulted _ _ passes (State.workedEntry_fault settled), State.workedEntry_channel]
    exact State.faultClaim_inRun cause (by rw [chan_u]; exact hg.inRun)
  rw [ended] at hchan hdeliv hring hwatch hresend hstops hsub hone
  have ring_t : (s.complete d choice).ring c = (s.upsetHistory d choice.badHistory).ring c := by
    rw [hring, State.endRun_ring, same.ring, State.worked_ring]
  have watch_u (w : WatchId) := same.watches w
  simp only [State.worked_watch] at watch_u
  refine ⟨_, ns, exec_dispatchCompletion choice hd, ?_, ?_, fun b => ?_, ?_, ?_, fun i w hw => ?_, fun w hw => ?_,
    fun b hf hb hs => ?_, harb, hsub, fun single => ?_⟩
  · rw [hchan, State.endRun_chan_same, chan_u]
  · rw [hdeliv, State.endRun_deliv_same, same.deliv, State.worked_deliv]
  · rw [hresend, State.endRun_resend]
    simp [c]
  · rw [hstops, State.endRun_stopRequests, same.stops, State.worked_stopRequests]
  · rw [ring_t, State.upsetHistory_length]
  · have marked : s.foundBad d choice.badHistory c (i + 1) = true ↔ read (i + 1) ∧ named (i + 1) :=
      State.foundBad_entry hn he
    refine ⟨w.markGood && !s.foundBad d choice.badHistory c (i + 1), ?_, ?_⟩
    · rw [ring_t, State.upsetHistory_getElem?, hw]
      cases s.foundBad d choice.badHistory c (i + 1) <;> simp [spoil]
    · rw [← marked, Bool.and_eq_false_iff, Bool.not_eq_false']
  · rw [hwatch w (by rw [State.endRun_watch, (watch_u w).1]; exact hw), State.endRun_watch, (watch_u w).2 hw]
  · have work := failed hf
    rw [hb] at work
    rw [State.complete_bank, State.worked, State.damageFound_bank, State.upsetHistory_bank,
      if_pos ⟨⟨e, he, work⟩, hs⟩]
  · obtain ⟨rfl, rfl, refs⟩ := hone single
    refine ⟨rfl, fun b => ⟨?_, fun unharmed => ?_⟩⟩
    · rw [refs, State.endRun_bank, (s.worked_bank d choice b).1, State.worked_chan]
    · rw [State.complete_bank, State.worked, State.damageFound_bank, State.upsetHistory_bank, if_neg]
      rintro ⟨⟨x, hx, work⟩, -⟩
      rw [single, List.mem_singleton] at hx
      rw [hx] at work
      have unset : e.fault ≠ some cause := fun h =>
        nomatch (State.workEntry_unread (SnapEntry.reads_faulted h)).symm.trans work
      have cause_b := (settled.resolve_left unset).symm.trans work
      rw [unharmed.resolve_left unset] at cause_b
      exact nomatch cause_b

end Sys2Proof.Machine
end

section
/-! PROOFS. What an output handed on does to its channel, its watches, its banks and the stop requests (R18, R21, R70,
R87, R90): the parts of a completion that an output-due entry adds. -/

namespace Sys2Proof.Machine

/-! ## What the steps of one channel read -/

/-- An append reads the channel's record and its batches alone (R96, R97). -/
theorem State.append_congr {s t : State} {c : ChanId} (hc : t.chan c = s.chan c) (hd : t.deliv c = s.deliv c)
    (i : OutIndex) (v : Output) :
    (t.append c i v).2 = (s.append c i v).2 ∧ (t.append c i v).1.chan c = (s.append c i v).1.chan c ∧
      (t.append c i v).1.deliv c = (s.append c i v).1.deliv c := by
  unfold State.append
  dsimp only
  rw [hc, hd]
  split
  · simp [hc]
  · simp [State.loseOutput, hc, hd]

/-- An append writes flags and counters of the channel's record alone. -/
theorem State.append_chan_same (s : State) (c : ChanId) (i : OutIndex) (v : Output) :
    (s.append c i v).1.chan c = { s.chan c with
      flags := ((s.append c i v).1.chan c).flags
      counters := ((s.append c i v).1.chan c).counters } := by
  unfold State.append
  dsimp only
  split <;> simp [State.loseOutput]

/-- Two evaluations agree on all that channel `c` can see of them: its watches, the notices and the stop requests. -/
structure Evaluation.Agree (c : ChanId) (e f : Evaluation) : Prop where
  raised  : f.raised = e.raised
  stops   : f.stops = e.stops
  watches : ∀ w, (f.state.watch w).channel = (e.state.watch w).channel ∧
    ((e.state.watch w).channel = c → f.state.watch w = e.state.watch w)

theorem Evaluation.Agree.step {c : ChanId} {e f : Evaluation} (h : e.Agree c f) (i : OutIndex) (v : Output)
    (w : WatchId) : (e.step c i v w).Agree c (f.step c i v w) := by
  by_cases here : (e.state.watch w).channel = c
  · have same := (h.watches w).2 here
    have written (r : Watch) (x : WatchId) :
        ((f.state.modWatch w fun _ => r).watch x).channel = ((e.state.modWatch w fun _ => r).watch x).channel ∧
          (((e.state.modWatch w fun _ => r).watch x).channel = c →
            (f.state.modWatch w fun _ => r).watch x = (e.state.modWatch w fun _ => r).watch x) := by
      rw [State.modWatch_watch, State.modWatch_watch]
      split
      · exact ⟨rfl, fun _ => rfl⟩
      · exact h.watches x
    unfold Evaluation.step
    dsimp only
    rw [same, if_pos here, if_pos here]
    split
    · exact ⟨h.raised, h.stops, written _⟩
    · exact ⟨by rw [h.raised], by rw [h.stops], written _⟩
    · exact ⟨by rw [h.raised], h.stops, written _⟩
  · have there : (f.state.watch w).channel ≠ c := by rw [(h.watches w).1]; exact here
    have unseen {g : Evaluation} (hg : (g.state.watch w).channel ≠ c) : g.step c i v w = g := if_neg hg
    rw [unseen here, unseen there]
    exact h

/-- The evaluation of an output reads the channel's own watches alone (R87). -/
theorem Evaluation.Agree.fold {c : ChanId} {e f : Evaluation} (h : e.Agree c f) (i : OutIndex) (v : Output)
    (ws : List WatchId) :
    (ws.foldl (Evaluation.step c i v) e).Agree c (ws.foldl (Evaluation.step c i v) f) := by
  induction ws generalizing e f with
  | nil => exact h
  | cons w ws ih => exact ih (h.step i v w)

/-- The evaluation of an output by two states that agree on the channel's watches. -/
theorem State.evaluate_agree {s t : State} {c : ChanId}
    (h : ∀ w, (t.watch w).channel = (s.watch w).channel ∧ ((s.watch w).channel = c → t.watch w = s.watch w))
    (i : OutIndex) (v : Output) : (s.evaluate c i v).Agree c (t.evaluate c i v) :=
  (show Evaluation.Agree c ⟨s, [], []⟩ ⟨t, [], []⟩ from ⟨rfl, rfl, h⟩).fold i v (List.finRange 8)

/-! ## The swap point and the stop requests (R18, R21, R90) -/

/-- A channel record at the swap point: a staged bank becomes active. -/
def Channel.swapped (r : Channel) : Channel :=
  if r.staged.isSome then
    { r with active := r.staged, staged := none, opSlot := r.opSlot.finishOp .swap .ok } else r

/-- A channel record after a stop request of a watch, if one is taken. -/
def Channel.stoppedIf (asked : Prop) [Decidable asked] (r : Channel) : Channel :=
  if asked ∧ r.state = .running then r.watchStopped else r

theorem Channel.stoppedIf_congr {p q : Prop} [Decidable p] [Decidable q] (h : p ↔ q) (r : Channel) :
    r.stoppedIf p = r.stoppedIf q := by
  simp only [Channel.stoppedIf, h]

/-- The bank that a channel gives up at its swap point, with a stop request taken before it or none. -/
def Channel.released (before : Prop) [Decidable before] (r : Channel) : Option BankId :=
  if before ∧ r.state = .running then r.staged else if r.staged.isSome then r.active else none

theorem State.swapPoint_chan_same (s : State) (c : ChanId) : (s.swapPoint c).chan c = (s.chan c).swapped := by
  unfold State.swapPoint Channel.swapped
  split
  · next h => simp [h]
  · next b h => simp [h]

theorem State.swapPoint_bank (s : State) (c : ChanId) (b : BankId) :
    (s.swapPoint c).bank b = { s.bank b with
      refs := (s.bank b).refs - if (s.chan c).staged.isSome ∧ (s.chan c).active = some b then 1 else 0 } := by
  unfold State.swapPoint
  split
  · next h => simp [h]
  · next x h => rw [State.modChan_bank, State.dropRef?_bank]; simp [h]

theorem State.stopRequest_ignored {s : State} {c : ChanId} (h : (s.chan c).state ≠ .running) :
    s.stopRequest c = s := by
  unfold State.stopRequest
  split
  · next hr => exact absurd hr h
  all_goals rfl

theorem State.stopRequest_chan_same (s : State) (c : ChanId) :
    (s.stopRequest c).chan c = (s.chan c).stoppedIf True := by
  by_cases h : (s.chan c).state = .running
  · rw [State.stopRequest_eq h, Channel.stoppedIf, if_pos ⟨trivial, h⟩]
    simp [State.chan]
  · rw [State.stopRequest_ignored h, Channel.stoppedIf, if_neg fun p => h p.2]

theorem State.stopRequest_bank (s : State) (c : ChanId) (b : BankId) :
    (s.stopRequest c).bank b = { s.bank b with
      refs := (s.bank b).refs -
        if (s.chan c).state = .running ∧ (s.chan c).staged = some b then 1 else 0 } := by
  by_cases h : (s.chan c).state = .running
  · rw [State.stopRequest_eq h]
    refine (s.dropRef?_bank (s.chan c).staged b).trans ?_
    simp [h]
  · rw [State.stopRequest_ignored h]
    simp [h]

theorem Channel.swapped_staged (r : Channel) : r.swapped.staged = none := by
  unfold Channel.swapped
  split
  · rfl
  · next h => simpa using h

theorem Channel.swapped_state (r : Channel) : r.swapped.state = r.state := by
  unfold Channel.swapped
  split <;> rfl

section
variable (s : State) (c : ChanId) (before after : Bool)

theorem State.swapAndStop_chan_same : (s.swapAndStop c before after).chan c =
    ((s.chan c).stoppedIf (before = true)).swapped.stoppedIf (after = true) := by
  have stop (t : State) (asked : Bool) :
      (if asked then t.stopRequest c else t).chan c = (t.chan c).stoppedIf (asked = true) := by
    cases asked
    · simp [Channel.stoppedIf]
    · simp [State.stopRequest_chan_same]
  unfold State.swapAndStop
  dsimp only
  rw [stop, State.swapPoint_chan_same, stop]

/-- The bank given up is the staged one where a request is taken before the swap point, else the one replaced. -/
theorem State.swapAndStop_bank (b : BankId) : (s.swapAndStop c before after).bank b = { s.bank b with
    refs := (s.bank b).refs - if (s.chan c).released (before = true) = some b then 1 else 0 } := by
  have last (t : State) (h : (t.chan c).staged = none) :
      (if after then t.stopRequest c else t).bank b = t.bank b := by
    cases after
    · rfl
    · simp [State.stopRequest_bank, h]
  unfold State.swapAndStop Channel.released
  dsimp only
  rw [last _ (by rw [State.swapPoint_chan_same]; exact Channel.swapped_staged _), State.swapPoint_bank]
  by_cases stopped : before = true ∧ (s.chan c).state = .running
  · have none_left : ((s.stopRequest c).chan c).staged = none := by
      rw [State.stopRequest_chan_same, Channel.stoppedIf, if_pos ⟨trivial, stopped.2⟩]
      rfl
    simp [stopped.1, stopped.2, none_left, State.stopRequest_bank]
  · have unstopped : (if before then s.stopRequest c else s) = s := by
      cases before
      · rfl
      · exact State.stopRequest_ignored fun h => stopped ⟨rfl, h⟩
    rw [unstopped, if_neg stopped]
    by_cases staged : (s.chan c).staged.isSome <;> simp [staged]

end

end Sys2Proof.Machine
end

section
/-! PROOFS. A dispatch completion seen from an output-due entry whose words are all good (O28). -/

namespace Sys2Proof.Machine

/-! ## The output computed (R73 to R75) -/

/-- The accumulation of an entry's terms, with the guard indication. -/
def State.sumOf (s : State) (d : Dispatch) (e : SnapEntry) (b : BankId) : Int × Bool :=
  let g := (s.chan e.channel).config
  (List.range (e.terms (s.bank b))).foldl (fun a k => addTerm g.policy a
    (term g.fraction (s.coeff (s.bank b) k).value (s.sampleAt d e.channel k).value)) (0, false)

/-- The result of an entry's computation over good words. -/
def State.outputOf (s : State) (d : Dispatch) (e : SnapEntry) (b : BankId) : Result :=
  let g := (s.chan e.channel).config
  let a := s.sumOf d e b
  let y := clip g.policy (scale g.shift a.1)
  ⟨e.channel, y.1, a.2, y.2⟩

theorem State.workEntry_good {s : State} {d : Dispatch} {e : SnapEntry} {b : BankId} (reads : e.reads = some b)
    (good : ∀ k, k < e.terms (s.bank b) →
      (s.coeff (s.bank b) k).markGood = true ∧ (s.sampleAt d e.channel k).markGood = true) :
    s.workEntry d e = .computed (s.outputOf d e b) := by
  have sum : s.accumulateFor d e (s.bank b) (e.terms (s.bank b)) = .ok (s.sumOf d e b) := by
    rw [State.accumulateFor, accumulate_good _ _ _ _ _ _ fun k _ hk => good k (by omega), ← List.range_eq_range']
    rfl
  rw [State.workEntry, reads]
  dsimp only
  rw [sum]
  rfl

/-- History words found bad beyond the terms of an entry leave the ring of its channel. -/
theorem State.upsetHistory_ring_beyond {s : State} {d : Dispatch} {e : SnapEntry} {b : BankId}
    {bad : List (ChanId × Fin 256)} (hn : (d.snapshot.map (·.channel)).Nodup) (he : e ∈ d.snapshot)
    (reads : e.reads = some b)
    (beyond : ∀ k : Fin 256, (e.channel, k) ∈ bad → k.val = 0 ∨ e.terms (s.bank b) ≤ k.val) :
    (s.upsetHistory d bad).ring e.channel = s.ring e.channel := by
  refine State.upsetHistory_ring fun k => Bool.eq_false_iff.2 fun found => ?_
  obtain ⟨read, i, named, rfl⟩ := State.foundBad_iff.1 found
  obtain ⟨x, hx, pos, term⟩ := (State.readsHistory_iff hn he).1 read
  obtain rfl := Option.some.inj (hx.symm.trans reads)
  rcases beyond i named with h | h <;> omega

/-- What is computed for an entry whose words are all good, the operand naming none of its terms. -/
theorem State.workEntry_output {s : State} {d : Dispatch} {e : SnapEntry} {b : BankId}
    {bad : List (ChanId × Fin 256)} (reads : e.reads = some b)
    (ring : (s.upsetHistory d bad).ring e.channel = s.ring e.channel)
    (good : ∀ k, k < e.terms (s.bank b) →
      (s.coeff (s.bank b) k).markGood = true ∧ (s.sampleAt d e.channel k).markGood = true) :
    (s.upsetHistory d bad).workEntry d e = .computed (s.outputOf d e b) := by
  have same : (s.upsetHistory d bad).outputOf d e b = s.outputOf d e b := by
    simp only [State.outputOf, State.sumOf, State.upsetHistory_coeff, State.sampleAt, State.upsetHistory_chan,
      State.upsetHistory_bank, ring]
  rw [← same]
  refine State.workEntry_good reads fun k hk => ?_
  rw [State.upsetHistory_bank] at hk ⊢
  rw [State.upsetHistory_coeff, State.sampleAt, ring]
  exact good k hk

/-- With one entry a channel, the result listed for a channel is that of its entry. -/
theorem State.workDispatch_result {s : State} {d : Dispatch} {e : SnapEntry} {r : Result}
    (hn : (d.snapshot.map (·.channel)).Nodup) (he : e ∈ d.snapshot) (h : s.workEntry d e = .computed r)
    (hr : r.channel = e.channel) :
    (s.workDispatch d).results.find? (fun r => r.channel == e.channel) = some r := by
  have listed (y : Result) : y ∈ (s.workDispatch d).results ↔ ∃ x ∈ d.snapshot, s.workEntry d x = .computed y := by
    refine List.mem_filterMap.trans (exists_congr fun x => and_congr_right fun _ => ?_)
    split <;> simp [*]
  have own (x : SnapEntry) (y : Result) (w : s.workEntry d x = .computed y) : y.channel = x.channel := by
    unfold State.workEntry at w
    split at w
    · exact nomatch w
    · split at w
      · exact nomatch w
      · exact nomatch w
      · exact congrArg Result.channel (EntryWork.computed.inj w).symm
  cases found : (s.workDispatch d).results.find? (fun r => r.channel == e.channel) with
  | none => exact absurd hr (by simpa using List.find?_eq_none.1 found r ((listed r).2 ⟨e, he, h⟩))
  | some y =>
    obtain ⟨x, hx, w⟩ := (listed y).1 (List.mem_of_find?_eq_some found)
    have channel : y.channel = e.channel := by simpa using List.find?_some found
    obtain rfl := entry_unique hn he hx ((own x y w).symm.trans channel)
    exact congrArg some (EntryWork.computed.inj (w.symm.trans h))

/-! ## An output handed on (R70) -/

section
variable (s : State) (c : ChanId) (r : Result) (taps : Nat) (choice : CompletionChoice)

/-- The output appended, with the flags of its result set. -/
def State.appended : Raising := (s.setFlags c r taps).append c (s.chan c).outIndex r.value

/-- The evaluation of the output. -/
def State.watched : Evaluation := (s.appended c r taps).1.evaluate c (s.chan c).outIndex r.value

/-- A stop request of the evaluation is taken, before the swap point or after it. -/
def State.asked (before : Bool) : Bool := !(requestsTaken choice (s.watched c r taps).stops before).isEmpty

/-- The state after the output is counted. -/
def State.counted : State :=
  (s.watched c r taps).state.modChan c fun ch => { ch with outIndex := ch.outIndex + 1 }

theorem State.handOn_eq : (s.handOn c r taps choice).1 =
    ((s.counted c r taps).swapAndStop c (s.asked c r taps choice true) (s.asked c r taps choice false)).leaveRequests c
      ((s.watched c r taps).stops.filter choice.stopLate.contains) := rfl

theorem State.handOn_notices :
    (s.handOn c r taps choice).2 = (s.appended c r taps).2 ++ (s.watched c r taps).raised := rfl

theorem State.counted_chan_same : (s.counted c r taps).chan c =
    { (s.appended c r taps).1.chan c with outIndex := (s.chan c).outIndex + 1 } := by
  have index : ((s.appended c r taps).1.chan c).outIndex = (s.chan c).outIndex := by
    rw [State.appended, State.append_chan_same]
    simp [State.setFlags]
  rw [State.counted, State.modChan_chan_same, State.watched, State.evaluate_chan, index]

/-- The record as the output is counted, where the swap point and the stop requests read it. -/
theorem State.counted_run : ((s.counted c r taps).chan c).state = (s.chan c).state ∧
    ((s.counted c r taps).chan c).staged = (s.chan c).staged ∧
    ((s.counted c r taps).chan c).active = (s.chan c).active := by
  rw [State.counted_chan_same, State.appended, State.append_chan_same]
  simp [State.setFlags]

theorem State.counted_stopRequests : (s.counted c r taps).stopRequests = s.stopRequests := by
  simp [State.counted, State.watched, State.appended]

theorem State.handOn_watch (w : WatchId) :
    (s.handOn c r taps choice).1.watch w = (s.watched c r taps).state.watch w := by
  simp [State.handOn_eq, State.counted]

theorem State.handOn_deliv_same : (s.handOn c r taps choice).1.deliv c = (s.appended c r taps).1.deliv c := by
  simp [State.handOn_eq, State.counted, State.watched]

theorem State.handOn_chan_same : (s.handOn c r taps choice).1.chan c =
    ((({ (s.appended c r taps).1.chan c with outIndex := (s.chan c).outIndex + 1 } : Channel).stoppedIf
      (s.asked c r taps choice true = true)).swapped).stoppedIf (s.asked c r taps choice false = true) := by
  rw [State.handOn_eq, State.leaveRequests_chan, State.swapAndStop_chan_same, State.counted_chan_same]

theorem State.handOn_bank (b : BankId) : (s.handOn c r taps choice).1.bank b = { s.bank b with
    refs := (s.bank b).refs -
      if (s.chan c).released (s.asked c r taps choice true = true) = some b then 1 else 0 } := by
  obtain ⟨state, staged, active⟩ := s.counted_run c r taps
  have bank : (s.counted c r taps).bank b = s.bank b := by
    simp [State.counted, State.watched, State.appended]
  rw [State.handOn_eq, State.leaveRequests_bank, State.swapAndStop_bank, bank, Channel.released, state, staged,
    active, Channel.released]

theorem State.handOn_requests : (s.handOn c r taps choice).1.stopRequests =
    if (s.asked c r taps choice true = true ∨ s.asked c r taps choice false = true) ∧
        (s.chan c).state = .running then s.stopRequests.filter (· != c)
    else if (s.watched c r taps).stops.filter choice.stopLate.contains ≠ [] ∧ (s.chan c).state = .running ∧
        c ∉ s.stopRequests then s.stopRequests ++ [c]
    else s.stopRequests := by
  rw [State.handOn_eq, State.leaveRequests_stopRequests, State.swapAndStop_state, State.swapAndStop_stopRequests,
    (s.counted_run c r taps).1, State.counted_stopRequests]
  split
  · next stopped => simp
  · rfl

/-- What becomes of the channel's own requests that wait. -/
theorem State.handOn_ownRequests : (s.handOn c r taps choice).1.stopRequests.filter (· == c) =
    if (s.asked c r taps choice true = true ∨ s.asked c r taps choice false = true) ∧
        (s.chan c).state = .running then []
    else if (s.watched c r taps).stops.filter choice.stopLate.contains ≠ [] ∧ (s.chan c).state = .running ∧
        c ∉ s.stopRequests then [c]
    else s.stopRequests.filter (· == c) := by
  rw [State.handOn_requests]
  split
  · simp
  · split
    · next late =>
      have none_waits : s.stopRequests.filter (· == c) = [] :=
        List.filter_eq_nil_iff.2 fun x hx => by simpa using ne_of_mem_of_not_mem hx late.2.2
      simp [List.filter_append, none_waits]
    · rfl

end

/-- The requests taken are those of the watches not in `stopLate`, by `stopFirst` before the swap point or after. -/
theorem requestsTaken_iff (choice : CompletionChoice) (ws : List WatchId) (before : Bool) :
    (!(requestsTaken choice ws before).isEmpty) = true ↔
      ∃ i ∈ ws.filter fun i => i ∉ choice.stopLate, choice.stopFirst.contains i = before := by
  simp [requestsTaken, and_assoc]

/-- Two states in which channel `c` has the same batches and the same watches. -/
structure State.SameOutputs (s t : State) (c : ChanId) : Prop where
  deliv   : t.deliv c = s.deliv c
  watches : ∀ w, (t.watch w).channel = (s.watch w).channel ∧
    ((s.watch w).channel = c → t.watch w = s.watch w)

/-- An output is appended and evaluated alike in two states that agree on the channel once its flags are set. -/
theorem State.appended_congr {s t : State} {c : ChanId} {r : Result} {taps : Nat} {i : OutIndex}
    (hi : (t.chan c).outIndex = i) (hc : (t.setFlags c r taps).chan c = s.chan c) (h : s.SameOutputs t c) :
    let v := s.append c i r.value
    ((t.appended c r taps).2 = v.2 ∧ (t.appended c r taps).1.chan c = v.1.chan c ∧
      (t.appended c r taps).1.deliv c = v.1.deliv c) ∧
    (v.1.evaluate c i r.value).Agree c (t.watched c r taps) := by
  subst hi
  refine ⟨State.append_congr hc (by simpa using h.deliv) _ _, State.evaluate_agree (fun w => ?_) _ _⟩
  rw [State.append_watch, State.appended, State.append_watch, State.setFlags_watch]
  exact h.watches w

/-- An output handed on, told by the append and the evaluation in a state `s` that agrees on the channel once its
flags are set. -/
theorem State.handOn_seen {s t : State} {c : ChanId} {r : Result} {taps : Nat} {i : OutIndex}
    (choice : CompletionChoice) (hi : (t.chan c).outIndex = i)
    (hc : (t.setFlags c r taps).chan c = s.chan c) (h : s.SameOutputs t c) :
    let v := s.append c i r.value
    let w := v.1.evaluate c i r.value
    let f := t.handOn c r taps choice
    f.2 = v.2 ++ w.raised ∧ f.1.deliv c = v.1.deliv c ∧
      f.1.chan c = ((({ v.1.chan c with outIndex := i + 1 } : Channel).stoppedIf
        (t.asked c r taps choice true = true)).swapped).stoppedIf (t.asked c r taps choice false = true) ∧
      (∀ x, (s.watch x).channel = c → f.1.watch x = w.state.watch x) ∧ (t.watched c r taps).stops = w.stops := by
  obtain ⟨⟨lost, chan_v, deliv_v⟩, seen⟩ := State.appended_congr hi hc h
  refine ⟨?_, ?_, ?_, fun x hx => ?_, seen.stops⟩
  · rw [State.handOn_notices, lost, seen.raised]
  · rw [State.handOn_deliv_same, deliv_v]
  · rw [State.handOn_chan_same, chan_v, hi]
  · rw [State.handOn_watch]
    refine (seen.watches x).2 ((Evaluation.fold_watches c i r.value _ _ x).1.trans ?_)
    rw [State.append_watch, hx]

/-! ## The completion, seen from the entry -/

/-- A completion seen from an entry with a computed output: its channel takes the sample, the output is handed on,
and the close of a STOPPING channel follows, from a state `q` that agrees with the one before on the channel. -/
theorem State.complete_output {s : State} {d : Dispatch} {e : SnapEntry} {b : BankId} {r : Result}
    {choice : CompletionChoice} (hn : (d.snapshot.map (·.channel)).Nodup) (he : e ∈ d.snapshot)
    (hg : guardPasses s e) (fault : e.fault = none) (bank : e.bank = some b)
    (phase : (s.chan e.channel).phase + 1 = (s.chan e.channel).config.decimation)
    (ring : (s.upsetHistory d choice.badHistory).ring e.channel = s.ring e.channel)
    (work : (s.upsetHistory d choice.badHistory).workEntry d e = .computed r) (hr : r.channel = e.channel) :
    ∃ (q : State) (ns : List Notice),
      q.chan e.channel = (s.takeSample e.channel d.sample).chan e.channel ∧ s.SameOutputs q e.channel ∧
      q.stopRequests.filter (· == e.channel) = s.stopRequests.filter (· == e.channel) ∧
      let h := q.handOn e.channel r (s.bank b).taps choice
      let f := h.1.closeIfStopping e.channel
      let t := s.complete d choice
      t.chan e.channel = f.1.chan e.channel ∧ t.deliv e.channel = f.1.deliv e.channel ∧
      t.ring e.channel = (⟨d.sample.value, true⟩ :: s.ring e.channel).take 256 ∧
      (∀ b, (e.channel, b) ∈ t.resend ↔ (e.channel, b) ∈ s.resend) ∧
      t.stopRequests.filter (· == e.channel) = h.1.stopRequests.filter (· == e.channel) ∧
      (∀ i, (s.watch i).channel = e.channel → t.watch i = h.1.watch i) ∧
      t.arbiter = (s.raiseAll ns).arbiter ∧ (h.2 ++ f.2).Sublist ns ∧
      (d.snapshot = [e] → ns = h.2 ++ f.2 ∧
        ∀ i, (t.bank i).refs = (h.1.bank i).refs ∧ (q.bank i).refs = (s.bank i).refs) := by
  have unfailed : (s.upsetHistory d choice.badHistory).workedEntry d e = e := by rw [State.workedEntry, work]
  obtain ⟨p, ns, same, hchan, hdeliv, hring, hwatch, hresend, hstops, harb, hsub, hone⟩ :=
    s.complete_focus d choice e hn he
  rw [unfailed] at hchan hdeliv hring hwatch hresend hstops hsub hone
  have chan_p : p.chan e.channel = s.chan e.channel := same.chan.trans (s.worked_chan d choice _)
  have watch_p (i : WatchId) := same.watches i
  simp only [State.worked_watch] at watch_p
  have taps : p.notedTaps e = (s.bank b).taps := by
    rw [State.notedTaps, bank]
    dsimp only
    rw [same.banks b, (s.worked_bank d choice b).1]
  have settled : p.completeEntry choice ((s.upsetHistory d choice.badHistory).workDispatch d) e =
      ((p.takeSample e.channel d.sample).handOn e.channel r (s.bank b).taps choice).andThen
        fun s => s.closeIfStopping e.channel := by
    rw [State.completeEntry_passing _ _ ((State.passes_congr chan_p).trans (State.passes_iff.2 hg)) fault,
      State.settlePassing_output choice (by rw [chan_p]; exact phase) (State.workDispatch_result hn he work hr), taps]
    rfl
  rw [settled] at hchan hdeliv hring hwatch hresend hstops hsub hone
  simp only [Raising.andThen, State.closeIfStopping_ring, State.closeIfStopping_watch, State.closeIfStopping_resend,
    State.closeIfStopping_stopRequests, State.closeIfStopping_bank] at hchan hdeliv hring hwatch hresend hstops hsub hone
  refine ⟨p.takeSample e.channel d.sample, ns, ?_, ⟨?_, fun i => ?_⟩, ?_, hchan, hdeliv, ?_, fun b => ?_, hstops,
    fun i hi => hwatch i ?_, harb, hsub, fun single => ?_⟩
  · rw [State.takeSample_chan_same, State.takeSample_chan_same, chan_p]
  · rw [State.takeSample_deliv, same.deliv, State.worked_deliv]
  · rw [State.takeSample_watch]
    exact watch_p i
  · rw [State.takeSample_stopRequests, same.stops, State.worked_stopRequests]
  · rw [hring, State.handOn_ring, State.takeSample_ring_same, same.ring, State.worked_ring, ring]
  · rw [hresend, State.handOn_resend, State.takeSample_resend, same.resend, State.worked_resend]
  · rw [(State.handOn_watches _ _ _ _ _ i).1, State.takeSample_watch, (watch_p i).1, hi]
  · obtain ⟨rfl, rfl, refs⟩ := hone single
    exact ⟨rfl, fun i => ⟨refs i, by rw [State.takeSample_bank, (s.worked_bank d choice i).1]⟩⟩

/-! ## The obligation -/

/-- Settles O28: the output is the one computed over the entry's terms, handed on in a state that agrees with the one
before on the channel, and the close of a STOPPING channel follows. -/
theorem completionHandsOnTheOutput : Obligations.CompletionHandsOnTheOutput := by
  intro s d e b choice hd hn he hg due bank fault phase c old g n x good named a y fill u v w late now before after
    swap stop r ch released
  have reads : e.reads = some b := SnapEntry.reads_iff.2 ⟨fault, due, bank⟩
  have ring : (s.upsetHistory d choice.badHistory).ring c = s.ring c :=
    State.upsetHistory_ring_beyond hn he reads named
  let out : Result := ⟨c, y.1, a.2, y.2⟩
  have work : (s.upsetHistory d choice.badHistory).workEntry d e = .computed out :=
    State.workEntry_output reads ring good
  obtain ⟨q, ns, chan_q, same, stops_q, hchan, hdeliv, hring, hresend, hstops, hwatch, harb, hsub, hone⟩ :=
    State.complete_output hn he hg fault bank phase ring work rfl
  have chan_u : (q.setFlags c out (s.bank b).taps).chan c = u.chan c := by
    refine (State.modChan_chan_same q c _).trans ?_
    rw [chan_q, State.takeSample_chan_same, if_pos phase]
    exact (State.modChan_chan_same s c fun _ => _).symm
  have index : (q.chan c).outIndex = old.outIndex := by rw [chan_q, State.takeSample_chan_same]
  have state : (q.chan c).state = old.state := by rw [chan_q, State.takeSample_chan_same]
  have outputs : u.SameOutputs q c := ⟨same.deliv, same.watches⟩
  obtain ⟨notices, deliv, chan, watch, stops⟩ := State.handOn_seen choice index chan_u outputs
  have notices_v : (q.handOn c out (s.bank b).taps choice).2 = v.2 ++ w.raised := notices
  have stops_w : (q.watched c out (s.bank b).taps).stops = w.stops := stops
  have asked_before : q.asked c out (s.bank b).taps choice true = true ↔ before := by
    rw [State.asked, stops_w, requestsTaken_iff]
    exact exists_congr fun i => and_congr_right fun _ => List.contains_iff_mem
  have asked_after : q.asked c out (s.bank b).taps choice false = true ↔ after := by
    rw [State.asked, stops_w, requestsTaken_iff]
    exact exists_congr fun i => and_congr_right fun _ => by simp
  have left : w.stops.filter choice.stopLate.contains = late := List.filter_congr fun i _ => by simp
  have handed : (q.handOn c out (s.bank b).taps choice).1.chan c = ch := by
    rw [chan, Channel.stoppedIf_congr asked_before, Channel.stoppedIf_congr asked_after]
    rfl
  have stops_c : q.stopRequests.filter (· == c) = s.stopRequests.filter (· == c) := stops_q
  have waits : c ∈ q.stopRequests ↔ c ∈ s.stopRequests := by
    have listed (l : List ChanId) : c ∈ l ↔ c ∈ l.filter (· == c) := by simp
    rw [listed, stops_c, ← listed]
  have requests := q.handOn_ownRequests c out (s.bank b).taps choice
  simp only [stops_w, left, asked_before, asked_after, state, waits, stops_c] at requests
  have gives_up : (q.chan c).released (q.asked c out (s.bank b).taps choice true = true) = released := by
    rw [chan_q, State.takeSample_chan_same]
    simp only [Channel.released, asked_before]
    rfl
  refine ⟨_, ns, v.2 ++ w.raised ++ ((q.handOn c out (s.bank b).taps choice).1.closeIfStopping c).2, _,
    exec_dispatchCompletion choice hd, hring, hresend, fun halting => ?_, fun running => ?_,
    fun i hi => (hwatch i hi).trans (watch i hi), fun running => ?_, fun halting => ?_, rfl, harb, ?_,
    fun single => ?_⟩
  · rw [hstops, requests, halting]
    simp
  · rw [hstops, requests, running]
    simp
  · rw [hchan, hdeliv, State.closeIfStopping_open (by rw [handed, running]; exact (nomatch ·))]
    exact ⟨handed, deliv, rfl⟩
  · have closed := State.closeIfStopping_closes (s := (q.handOn c out (s.bank b).taps choice).1) (c := c)
      (by rw [handed, halting])
    rwa [handed, deliv, ← hchan, ← hdeliv] at closed
  · rw [← notices_v]
    exact hsub
  · obtain ⟨all, refs⟩ := hone single
    refine ⟨by rw [← notices_v]; exact all, fun i => ?_⟩
    rw [(refs i).1, State.handOn_bank, gives_up, (refs i).2]

end Sys2Proof.Machine
end

section
/-! PROOFS. A dispatch completion as a whole: what the settling of all entries keeps, and the end of the dispatch
(O26). -/

namespace Sys2Proof.Machine

/-! ## Runs go on or end, and none begins -/

/-- A channel record later in a completion: the session stays, and a run that goes on was on before. -/
structure Channel.Later (r t : Channel) : Prop where
  session : t.session = r.session
  running : t.state = .running → r.state = .running
  inRun   : t.state.inRun = true → r.state.inRun = true

theorem Channel.Later.of_same {r t : Channel} (hs : t.session = r.session) (h : t.state = r.state) : r.Later t :=
  ⟨hs, fun x => h ▸ x, fun x => h ▸ x⟩

theorem Channel.Later.trans {r t u : Channel} (h : r.Later t) (h' : t.Later u) : r.Later u :=
  ⟨h'.session.trans h.session, fun x => h.running (h'.running x), fun x => h.inRun (h'.inRun x)⟩

/-- A record of a run that has ended. -/
theorem Channel.Later.of_ended {r t : Channel} (hs : t.session = r.session) (h : t.state.inRun = false) : r.Later t :=
  ⟨hs, fun x => Bool.noConfusion (h.symm.trans (congrArg ChanState.inRun x)), fun x => Bool.noConfusion (h.symm.trans x)⟩

theorem State.drainReport_later (s : State) (c : ChanId) : (s.chan c).Later ((s.drainReport c).1.chan c) := by
  unfold State.drainReport
  split
  · exact .of_ended (by simp) (by simp [ChanState.inRun])
  · exact .of_ended (by simp) (by simp [ChanState.inRun])
  · exact .of_same rfl rfl

theorem State.closeIfStopping_later (s : State) (c : ChanId) : (s.chan c).Later ((s.closeIfStopping c).1.chan c) := by
  have drain (t : State) (h : t.chan c = s.chan c) : (s.chan c).Later ((t.checkDrain c).1.chan c) := by
    unfold State.checkDrain
    split
    · rw [← h]
      exact State.drainReport_later (t.modDeliv c _) c
    · rw [h]
      exact .of_same rfl rfl
  unfold State.closeIfStopping State.closeBatch
  split
  · split
    · exact .of_same rfl rfl
    · exact drain ((s.closeFilling c).1.modDeliv c fun d => { d with drainWatch := true }) (by simp)
  · exact .of_same rfl rfl

theorem Channel.stoppedIf_later (p : Prop) [Decidable p] (r : Channel) : r.Later (r.stoppedIf p) := by
  unfold Channel.stoppedIf
  split
  · next h => exact ⟨rfl, (nomatch ·), fun _ => by rw [h.2]; rfl⟩
  · exact .of_same rfl rfl

theorem Channel.swapped_later (r : Channel) : r.Later r.swapped := by
  refine .of_same ?_ r.swapped_state
  unfold Channel.swapped
  split <;> rfl

theorem State.handOn_later (s : State) (c : ChanId) (r : Result) (taps : Nat) (choice : CompletionChoice) :
    (s.chan c).Later ((s.handOn c r taps choice).1.chan c) := by
  have counted : (s.chan c).Later { (s.appended c r taps).1.chan c with outIndex := (s.chan c).outIndex + 1 } := by
    rw [State.appended, State.append_chan_same]
    exact .of_same (by simp [State.setFlags]) (by simp [State.setFlags])
  rw [State.handOn_chan_same]
  exact ((counted.trans (Channel.stoppedIf_later _ _)).trans (Channel.swapped_later _)).trans
    (Channel.stoppedIf_later _ _)

theorem State.settlePassing_later (s : State) (choice : CompletionChoice) (d : Dispatch) (e : SnapEntry) :
    (s.chan e.channel).Later ((s.settlePassing choice d e).1.chan e.channel) := by
  have sampled : (s.chan e.channel).Later ((s.takeSample e.channel d.sample).chan e.channel) := by
    rw [State.takeSample_chan_same]
    exact .of_same rfl rfl
  unfold State.settlePassing
  refine Channel.Later.trans ?_ (State.closeIfStopping_later _ _)
  split
  · split
    · exact sampled.trans (State.handOn_later _ _ _ _ _)
    · exact sampled
  · exact sampled

/-- The settling of an entry starts no run. -/
theorem State.completeEntry_later (s : State) (choice : CompletionChoice) (d : Dispatch) (e : SnapEntry) (c : ChanId) :
    (s.chan c).Later ((s.completeEntry choice d e).1.chan c) := by
  by_cases own : c = e.channel
  · subst own
    cases passes : s.passes e with
    | false =>
      rw [State.completeEntry_failing _ _ passes]
      exact s.closeIfStopping_later _
    | true =>
      cases fault : e.fault with
      | none =>
        rw [State.completeEntry_passing _ _ passes fault]
        exact s.settlePassing_later choice d e
      | some cause =>
        rw [State.completeEntry_faulted _ _ passes fault, State.faultClaim_inRun cause (State.passes_iff.1 passes).inRun,
          State.endRun_chan_same]
        exact .of_ended rfl rfl
  · rw [(s.completeEntry_other choice d e c own).chan]
    exact .of_same rfl rfl

theorem State.settleAll_later (choice : CompletionChoice) (d : Dispatch) (es : List SnapEntry) (s : State)
    (c : ChanId) : (s.chan c).Later ((State.settleAll choice d es s).1.chan c) := by
  induction es generalizing s with
  | nil => exact .of_same rfl rfl
  | cons e es ih => exact (s.completeEntry_later choice d e c).trans (ih _)

/-- An entry that passes the guard later passed it before. -/
theorem State.passes_of_later {s t : State} {e : SnapEntry} (h : (s.chan e.channel).Later (t.chan e.channel))
    (p : t.passes e = true) : s.passes e = true := by
  simp only [State.passes, Bool.and_eq_true, beq_iff_eq] at p ⊢
  obtain ⟨⟨struck, inRun⟩, session⟩ := p
  exact ⟨⟨struck, h.inRun inRun⟩, h.session ▸ session⟩

theorem State.completeEntry_failing_after {s : State} (choice : CompletionChoice) (d : Dispatch) (e : SnapEntry)
    {x : SnapEntry} (h : s.passes x = false) : (s.completeEntry choice d e).1.passes x = false :=
  Bool.eq_false_iff.2 fun p =>
    Bool.eq_false_iff.1 h (State.passes_of_later (s.completeEntry_later choice d e x.channel) p)

/-! ## The requests that wait after all entries (R21, R90) -/

/-- What the settling of entries does to the requests that wait: those of the channels in `gone` are ignored, and
`late` are left. -/
structure State.Requests (es : List SnapEntry) (s t : State) (gone late : List ChanId) : Prop where
  stays   : t.stopRequests = s.stopRequests.filter (· ∉ gone) ++ late
  passing : ∀ c ∈ gone ++ late, (s.chan c).state = .running ∧ ∃ e ∈ es, e.channel = c ∧ s.passes e = true
  stopped : ∀ c ∈ gone, (t.chan c).state ≠ .running
  nodup   : late.Nodup
  fresh   : ∀ c ∈ late, c ∉ s.stopRequests

section
variable {es : List SnapEntry} {e : SnapEntry} {s u t : State} {gone late : List ChanId}

/-- What the requests after an entry say of the state after it, they say of the state before it. -/
theorem State.Requests.passing_back (h : u.Requests es t gone late) (later : ∀ c, (s.chan c).Later (u.chan c)) :
    ∀ c ∈ gone ++ late, (s.chan c).state = .running ∧ ∃ x ∈ e :: es, x.channel = c ∧ s.passes x = true := by
  intro c hc
  obtain ⟨running, x, hx, channel, passes⟩ := h.passing c hc
  exact ⟨(later c).running running, x, List.mem_cons_of_mem _ hx, channel,
    State.passes_of_later (later x.channel) passes⟩

/-- An entry that leaves the requests as they are. -/
theorem State.Requests.kept (h : u.Requests es t gone late) (later : ∀ c, (s.chan c).Later (u.chan c))
    (same : u.stopRequests = s.stopRequests) : s.Requests (e :: es) t gone late :=
  ⟨by rw [← same]; exact h.stays, h.passing_back later, h.stopped, h.nodup, fun c hc => same ▸ h.fresh c hc⟩

/-- An entry that stops its channel: the channel joins those whose requests are ignored. -/
theorem State.Requests.ignored (h : u.Requests es t gone late) (later : ∀ c, (s.chan c).Later (u.chan c))
    (after : ∀ c, (u.chan c).Later (t.chan c)) (passes : s.passes e = true)
    (running : (s.chan e.channel).state = .running) (ended : (u.chan e.channel).state ≠ .running)
    (taken : u.stopRequests = s.stopRequests.filter (· != e.channel)) :
    s.Requests (e :: es) t (e.channel :: gone) late where
  stays := by
    refine h.stays.trans ?_
    rw [taken, List.filter_filter]
    refine congrArg (· ++ late) (List.filter_congr fun c _ => ?_)
    rw [Bool.eq_iff_iff]
    simp [and_comm]
  passing := by
    rw [List.cons_append, List.forall_mem_cons]
    exact ⟨⟨running, e, List.mem_cons_self, rfl, passes⟩, h.passing_back later⟩
  stopped := by
    rw [List.forall_mem_cons]
    exact ⟨mt (after e.channel).running ended, h.stopped⟩
  nodup := h.nodup
  fresh c hc := by
    have other : c ≠ e.channel := by
      rintro rfl
      exact ended (h.passing _ (List.mem_append_right _ hc)).1
    have new := h.fresh c hc
    rw [taken, List.mem_filter] at new
    exact fun waits => new ⟨waits, by simpa using other⟩

/-- An entry that leaves a request: the channel joins those with one left, unless a later entry stops it. -/
theorem State.Requests.joined (h : u.Requests es t gone late) (later : ∀ c, (s.chan c).Later (u.chan c))
    (passes : s.passes e = true) (running : (s.chan e.channel).state = .running)
    (new : e.channel ∉ s.stopRequests) (left : u.stopRequests = s.stopRequests ++ [e.channel]) :
    ∃ late', s.Requests (e :: es) t gone late' := by
  have unlisted {c : ChanId} (hc : c ∈ late) : c ∉ s.stopRequests ∧ c ≠ e.channel := by
    have fresh := h.fresh c hc
    rw [left] at fresh
    simpa using fresh
  have stays := h.stays
  rw [left, List.filter_append] at stays
  by_cases taken : e.channel ∈ gone
  · exact ⟨late, stays.trans (by simp [taken]), h.passing_back later, h.stopped, h.nodup,
      fun c hc => (unlisted hc).1⟩
  · refine ⟨e.channel :: late, stays.trans (by simp [taken]), fun c hc => ?_, h.stopped,
      List.nodup_cons.2 ⟨fun listed => (unlisted listed).2 rfl, h.nodup⟩,
      List.forall_mem_cons.2 ⟨new, fun c hc => (unlisted hc).1⟩⟩
    by_cases own : c = e.channel
    · exact own ▸ ⟨running, e, List.mem_cons_self, rfl, passes⟩
    · exact h.passing_back later c (by simpa [own] using hc)

end

theorem State.settleAll_requests (choice : CompletionChoice) (d : Dispatch) (es : List SnapEntry) (s : State) :
    ∃ gone late, s.Requests es (State.settleAll choice d es s).1 gone late := by
  induction es generalizing s with
  | nil => exact ⟨[], [], by simp [State.settleAll], by simp, by simp, List.nodup_nil, by simp⟩
  | cons e es ih =>
    obtain ⟨gone, late, rest⟩ := ih (s.completeEntry choice d e).1
    have later := s.completeEntry_later choice d e
    rcases s.completeEntry_stopRequests choice d e with same | ⟨passes, running, ⟨taken, ended⟩ | ⟨left, -, new⟩⟩
    · exact ⟨gone, late, rest.kept later same⟩
    · exact ⟨_, late, rest.ignored later (State.settleAll_later choice d es _) passes running ended taken⟩
    · exact ⟨gone, rest.joined later passes running new left⟩

end Sys2Proof.Machine
end

section
/-! PROOFS. The end of a dispatch (O26): the channels whose entries all fail the guard, the notices and reference counts
where every entry does, and what a completion leaves alone. -/

namespace Sys2Proof.Machine

/-! ## Entries that fail the guard (R68, R71) -/

/-- What stays of channel `c` while its entries fail the guard: all but the record and the batches of a STOPPING one. -/
structure State.Untouched (s t : State) (c : ChanId) : Prop where
  ring    : t.ring c = s.ring c
  watches : ∀ w, (t.watch w).channel = (s.watch w).channel ∧
    ((s.watch w).channel = c → t.watch w = s.watch w)
  resend  : ∀ b, (c, b) ∈ t.resend ↔ (c, b) ∈ s.resend
  record  : (s.chan c).state ≠ .stopping → t.chan c = s.chan c ∧ t.deliv c = s.deliv c

theorem State.SameFor.untouched {s t : State} {c : ChanId} (h : s.SameFor t c) : s.Untouched t c :=
  ⟨h.ring, h.watches, h.resend, fun _ => ⟨h.chan, h.deliv⟩⟩

theorem State.Untouched.trans {s t u : State} {c : ChanId} (h : s.Untouched t c) (h' : t.Untouched u c) :
    s.Untouched u c where
  ring := h'.ring.trans h.ring
  watches w := ⟨(h'.watches w).1.trans (h.watches w).1, fun hw =>
    ((h'.watches w).2 ((h.watches w).1.trans hw)).trans ((h.watches w).2 hw)⟩
  resend b := (h'.resend b).trans (h.resend b)
  record hs := by
    obtain ⟨chan, deliv⟩ := h.record hs
    obtain ⟨chan', deliv'⟩ := h'.record (by rw [chan]; exact hs)
    exact ⟨chan'.trans chan, deliv'.trans deliv⟩

/-- The close writes the record and the batches of a STOPPING channel alone. -/
theorem State.closeIfStopping_untouched (s : State) (c : ChanId) : s.Untouched (s.closeIfStopping c).1 c where
  ring := by simp
  watches w := by simp
  resend b := by simp
  record hs := by rw [State.closeIfStopping_open hs]; exact ⟨rfl, rfl⟩

/-- A channel whose entries all fail the guard, after all entries. -/
theorem State.settleAll_untouched (choice : CompletionChoice) (d : Dispatch) (es : List SnapEntry) (s : State)
    (c : ChanId) (h : ∀ e ∈ es, e.channel = c → s.passes e = false) :
    s.Untouched (State.settleAll choice d es s).1 c := by
  induction es generalizing s with
  | nil => exact (State.SameFor.refl s c).untouched
  | cons e es ih =>
    obtain ⟨here, rest⟩ := List.forall_mem_cons.1 h
    have first : s.Untouched (s.completeEntry choice d e).1 c := by
      by_cases own : e.channel = c
      · rw [State.completeEntry_failing _ _ (here own), own]
        exact s.closeIfStopping_untouched c
      · exact (s.completeEntry_other choice d e c (Ne.symm own)).untouched
    exact first.trans (ih _ fun x hx hc => State.completeEntry_failing_after choice d e (rest x hx hc))

/-- With no entry that passes the guard no bank changes, and with no STOPPING channel there is no notice. -/
theorem State.settleAll_failing (choice : CompletionChoice) (d : Dispatch) (es : List SnapEntry) (s : State)
    (h : ∀ e ∈ es, s.passes e = false) :
    (State.settleAll choice d es s).1.banks = s.banks ∧
      ((∀ e ∈ es, (s.chan e.channel).state ≠ .stopping) → ∀ p ∈ (State.settleAll choice d es s).2, p.2 = []) := by
  induction es generalizing s with
  | nil => exact ⟨rfl, fun _ p hp => absurd hp List.not_mem_nil⟩
  | cons e es ih =>
    obtain ⟨here, rest⟩ := List.forall_mem_cons.1 h
    have first := State.completeEntry_failing choice d here
    obtain ⟨banks, silent⟩ := ih _ fun x hx => State.completeEntry_failing_after choice d e (rest x hx)
    refine ⟨banks.trans (by rw [first, State.closeIfStopping_banks]), fun going => ?_⟩
    obtain ⟨going_here, going_rest⟩ := List.forall_mem_cons.1 going
    rw [State.closeIfStopping_open going_here] at first
    refine List.forall_mem_cons.2 ⟨congrArg Prod.snd first, silent ?_⟩
    rw [first]
    exact going_rest

/-- The log of the notices has one list for each entry. -/
theorem State.settleAll_log_length (choice : CompletionChoice) (d : Dispatch) (es : List SnapEntry) (s : State) :
    (State.settleAll choice d es s).2.length = es.length := by
  induction es generalizing s with
  | nil => rfl
  | cons e es ih => exact congrArg (· + 1) (ih _)

/-- A log without notices merges to none. -/
theorem mergeNotices_silent (order : List ChanId) (log : NoticeLog) (h : ∀ p ∈ log, p.2 = []) :
    mergeNotices order log = [] := by
  have none_left (c : ChanId) : takeNotice c log = none := by
    induction log with
    | nil => rfl
    | cons p log ih =>
      obtain ⟨k, ns⟩ := p
      obtain ⟨rfl, rest⟩ : ns = [] ∧ ∀ p ∈ log, p.2 = [] := List.forall_mem_cons.1 h
      rw [takeNotice, ih rest]
      simp
  induction order with
  | nil => simpa [mergeNotices] using h
  | cons c order ih => rw [mergeNotices, none_left, ih]

/-! ## The engine (R63) -/

/-- The settling of an entry leaves the engine but for its rings. -/
theorem State.completeEntry_lastServed (s : State) (choice : CompletionChoice) (d : Dispatch) (e : SnapEntry) :
    (s.completeEntry choice d e).1.engine.lastServed = s.engine.lastServed := by
  unfold State.completeEntry State.settleEntry State.settlePassing
  split
  · split
    · rw [State.faultClaim_engine]
    · rw [Raising.andThen, State.closeIfStopping_engine]
      split
      · split
        · rw [State.handOn_engine]; rfl
        · rfl
      · rfl
  · rw [State.closeIfStopping_engine]

theorem State.settleAll_lastServed (choice : CompletionChoice) (d : Dispatch) (es : List SnapEntry) (s : State) :
    (State.settleAll choice d es s).1.engine.lastServed = s.engine.lastServed := by
  induction es generalizing s with
  | nil => rfl
  | cons e es ih => exact (ih _).trans (s.completeEntry_lastServed choice d e)

theorem State.worked_lastServed (s : State) (d : Dispatch) (choice : CompletionChoice) :
    (s.worked d choice).engine.lastServed = s.engine.lastServed := by
  rw [State.worked, State.damageFound_engine, State.upsetHistory]
  induction choice.badHistory generalizing s with
  | nil => rfl
  | cons p bad ih =>
    rw [List.foldl_cons, ih]
    split <;> rfl

/-! ## The completion as a whole -/

section
variable (s : State) (d : Dispatch) (choice : CompletionChoice)

/-- The entries settled in the state worked on, with the notices of each. -/
def State.settled : State × NoticeLog :=
  let d' := (s.upsetHistory d choice.badHistory).workDispatch d
  State.settleAll choice d' d'.snapshot (s.worked d choice)

/-- The notices of a completion. -/
def State.raised : List Notice := mergeNotices choice.noticeOrder (s.settled d choice).2

theorem State.complete_eq : s.complete d choice =
    (((s.settled d choice).1.setHolds d.snapshot false).setDispatch none).raiseAll (s.raised d choice) := rfl

theorem State.complete_chan (c : ChanId) : (s.complete d choice).chan c = (s.settled d choice).1.chan c := by
  simp [State.complete_eq]
theorem State.complete_deliv (c : ChanId) : (s.complete d choice).deliv c = (s.settled d choice).1.deliv c := by
  simp [State.complete_eq]
theorem State.complete_ring (c : ChanId) : (s.complete d choice).ring c = (s.settled d choice).1.ring c := by
  simp [State.complete_eq]
theorem State.complete_watch (w : WatchId) : (s.complete d choice).watch w = (s.settled d choice).1.watch w := by
  simp [State.complete_eq]
theorem State.complete_resend : (s.complete d choice).resend = (s.settled d choice).1.resend := by
  simp [State.complete_eq]
theorem State.complete_stopRequests :
    (s.complete d choice).stopRequests = (s.settled d choice).1.stopRequests := by
  simp [State.complete_eq]

theorem State.complete_refs (b : BankId) :
    ((s.complete d choice).bank b).refs = ((s.settled d choice).1.bank b).refs := by
  simp [State.complete_eq, State.setHolds_bank]

theorem State.complete_arbiter : (s.complete d choice).arbiter = (s.raiseAll (s.raised d choice)).arbiter :=
  State.raiseAll_arbiter_congr _ (by simp)

theorem State.complete_engine : (s.complete d choice).engine.dispatch = none ∧
    (s.complete d choice).engine.lastServed = s.engine.lastServed := by
  have last : (s.settled d choice).1.engine.lastServed = s.engine.lastServed :=
    (State.settleAll_lastServed _ _ _ _).trans (s.worked_lastServed d choice)
  rw [State.complete_eq]
  simp [last]

/-- The entries settled are those of the snapshot, by channel and by guard. -/
theorem State.worked_entries {P : ChanId → Bool → Prop}
    (h : ∀ e ∈ d.snapshot, P e.channel (s.passes e)) :
    ∀ x ∈ ((s.upsetHistory d choice.badHistory).workDispatch d).snapshot,
      P x.channel ((s.worked d choice).passes x) := by
  rw [State.workDispatch_snapshot]
  refine List.forall_mem_map.2 fun e he => ?_
  rw [State.workedEntry_channel, State.passes_workedEntry, State.passes_congr (s.worked_chan d choice _)]
  exact h e he

end

/-- The requests that wait after a completion: those of the channels that it stopped are ignored, and some are left. -/
theorem State.complete_requests (s : State) (d : Dispatch) (choice : CompletionChoice) :
    ∃ gone late, s.Requests d.snapshot (s.complete d choice) gone late := by
  obtain ⟨gone, late, stays, passing, stopped, nodup, fresh⟩ := State.settleAll_requests choice
    ((s.upsetHistory d choice.badHistory).workDispatch d) ((s.upsetHistory d choice.badHistory).workDispatch d).snapshot
    (s.worked d choice)
  rw [State.worked_stopRequests] at stays fresh
  refine ⟨gone, late, (s.complete_stopRequests d choice).trans stays, fun c hc => ?_, fun c hc => ?_, nodup, fresh⟩
  · obtain ⟨running, x, hx, channel, passes⟩ := passing c hc
    rw [State.workDispatch_snapshot] at hx
    obtain ⟨e, he, rfl⟩ := List.mem_map.1 hx
    rw [State.workedEntry_channel] at channel
    rw [State.passes_workedEntry, State.passes_congr (s.worked_chan d choice _)] at passes
    rw [State.worked_chan] at running
    exact ⟨running, e, he, channel, passes⟩
  · rw [State.complete_chan]
    exact stopped c hc

/-- The close of a STOPPING channel whose one entry fails the guard (R14; log entry 13). -/
theorem State.complete_closes {s : State} {d : Dispatch} {e : SnapEntry} (choice : CompletionChoice)
    (hn : (d.snapshot.map (·.channel)).Nodup) (he : e ∈ d.snapshot) (fails : s.passes e = false)
    (stopping : (s.chan e.channel).state = .stopping) :
    ∃ own, Closes e.channel (s.chan e.channel) (s.deliv e.channel) ((s.complete d choice).chan e.channel)
      ((s.complete d choice).deliv e.channel) own ∧ own.Sublist (s.raised d choice) ∧
      (d.snapshot.length = 1 → s.raised d choice = own) := by
  let s0 := s.upsetHistory d choice.badHistory
  have channels : (s0.workDispatch d).snapshot.map (·.channel) = d.snapshot.map (·.channel) := by
    rw [State.workDispatch_snapshot, List.map_map]
    exact List.map_congr_left fun x _ => s0.workedEntry_channel d x
  obtain ⟨u, same, after, logged⟩ := State.settleAll_focus choice (s0.workDispatch d) (s0.workDispatch d).snapshot
    (s.worked d choice) (s0.workedEntry d e) (by rw [channels]; exact hn) (List.mem_map.2 ⟨e, he, rfl⟩)
  rw [State.workedEntry_channel] at same after logged
  have chan_u : u.chan e.channel = s.chan e.channel := same.chan.trans (s.worked_chan d choice _)
  have deliv_u : u.deliv e.channel = s.deliv e.channel := same.deliv.trans (s.worked_deliv d choice _)
  have closing : u.completeEntry choice (s0.workDispatch d) (s0.workedEntry d e) = u.closeIfStopping e.channel := by
    rw [State.completeEntry_failing, State.workedEntry_channel]
    rw [State.passes_workedEntry, State.passes_congr chan_u, fails]
  rw [closing] at after logged
  refine ⟨(u.closeIfStopping e.channel).2, ?_, mergeNotices_sublist _ _ logged, fun one => ?_⟩
  · have closed := State.closeIfStopping_closes (s := u) (by rw [chan_u, stopping])
    rw [chan_u, deliv_u, ← after.chan, ← after.deliv] at closed
    rw [State.complete_chan, State.complete_deliv]
    exact closed
  · have log : (s.settled d choice).2.length = 1 := by
      rw [State.settled, State.settleAll_log_length, State.workDispatch_snapshot, List.length_map, one]
    obtain ⟨p, hp⟩ := List.length_eq_one_iff.1 log
    have mine : (e.channel, (u.closeIfStopping e.channel).2) ∈ (s.settled d choice).2 := logged
    rw [hp, List.mem_singleton] at mine
    rw [State.raised, hp, ← mine, mergeNotices_single]

/-- A channel whose entries all fail the guard keeps what no close writes. -/
theorem State.complete_untouched {s : State} {d : Dispatch} {c : ChanId} (choice : CompletionChoice)
    (h : ∀ e ∈ d.snapshot, e.channel = c → s.passes e = false) :
    (s.worked d choice).Untouched (s.settled d choice).1 c :=
  State.settleAll_untouched _ _ _ _ _
    (s.worked_entries d choice (P := fun k passes => k = c → passes = false) h)

/-- A channel that no entry names keeps all that a completion could write for it. -/
theorem State.complete_unnamed {s : State} {d : Dispatch} {c : ChanId} (choice : CompletionChoice)
    (h : ∀ e ∈ d.snapshot, e.channel ≠ c) : (s.worked d choice).SameFor (s.settled d choice).1 c :=
  State.settleAll_other _ _ _ _ _ (s.worked_entries d choice (P := fun k _ => k ≠ c) h)

/-- Where every entry fails the guard no reference count changes, and with no STOPPING channel there is no notice. -/
theorem State.complete_failing {s : State} {d : Dispatch} (choice : CompletionChoice)
    (h : ∀ e ∈ d.snapshot, s.passes e = false) :
    (∀ b, ((s.complete d choice).bank b).refs = (s.bank b).refs) ∧
      ((∀ e ∈ d.snapshot, (s.chan e.channel).state ≠ .stopping) → s.raised d choice = []) := by
  obtain ⟨banks, silent⟩ := State.settleAll_failing choice _ _ _
    (s.worked_entries d choice (P := fun _ passes => passes = false) h)
  refine ⟨fun b => ?_, fun going => mergeNotices_silent _ _ (silent ?_)⟩
  · have bank : (s.settled d choice).1.bank b = (s.worked d choice).bank b :=
      congrArg (fun v : Vector Bank 32 => v[b.val]) banks
    rw [State.complete_refs, bank, (s.worked_bank d choice b).1]
  · simp only [State.worked_chan]
    exact s.worked_entries d choice (P := fun k _ => (s.chan k).state ≠ .stopping) going

/-- Settles O26: the completion read off field by field, the requests that wait by the entries that pass the guard, and
the rest by those that fail it. -/
theorem completionEndsTheDispatch : Obligations.CompletionEndsTheDispatch := by
  intro s d choice hd
  obtain ⟨gone, late, requests⟩ := s.complete_requests d choice
  obtain ⟨ended, last⟩ := s.complete_engine d choice
  have fails {e : SnapEntry} (h : ¬ guardPasses s e) : s.passes e = false :=
    Bool.eq_false_iff.2 (mt State.passes_iff.1 h)
  have untouched (c : ChanId) (h : ∀ e ∈ d.snapshot, e.channel = c → ¬ guardPasses s e) :
      (s.worked d choice).Untouched (s.settled d choice).1 c :=
    State.complete_untouched choice fun e he hc => fails (h e he hc)
  refine ⟨s.complete d choice, s.raised d choice, gone, late, exec_dispatchCompletion choice hd, ended, last,
    fun b => ?_, by simp, by simp, by simp, by simp, by simp, s.complete_arbiter d choice, ?_, ?_, requests.stays,
    fun c hc => ?_, requests.stopped, requests.nodup, requests.fresh, fun none_pass => ⟨fun none_stop => ?_, fun b => ?_⟩,
    fun c failing => ⟨fun quiet => ?_, fun stopping named single => ?_, fun b => ?_, fun sound => ?_, fun w hw => ?_⟩⟩
  · rw [State.complete_bank]
    exact ⟨rfl, rfl, rfl, rfl, (s.worked_bank d choice b).2⟩
  · rw [s.complete_arbiter d choice, State.raiseAll_transmission]
  · rw [s.complete_arbiter d choice, State.raiseAll_rotation]
  · obtain ⟨running, e, he, channel, passes⟩ := requests.passing c hc
    exact ⟨running, e, he, channel, State.passes_iff.1 passes⟩
  · exact (State.complete_failing choice fun e he => fails (none_pass e he)).2 none_stop
  · exact (State.complete_failing choice fun e he => fails (none_pass e he)).1 b
  · rw [State.complete_chan, State.complete_deliv, ← s.worked_chan d choice, ← s.worked_deliv d choice]
    rcases quiet with going | unnamed
    · exact (untouched c failing).record (by rw [State.worked_chan]; exact going)
    · have same := State.complete_unnamed (s := s) choice unnamed
      exact ⟨same.chan, same.deliv⟩
  · obtain ⟨e, he, rfl⟩ := named
    exact State.complete_closes choice single he (fails (failing e he rfl)) stopping
  · rw [State.complete_resend, (untouched c failing).resend, State.worked_resend]
  · rw [State.complete_ring, (untouched c failing).ring, State.worked_ring, sound]
    rfl
  · have watch := (untouched c failing).watches w
    rw [State.worked_watch] at watch
    rw [State.complete_watch, watch.2 hw]

end Sys2Proof.Machine
end

section
/-! PROOFS. The watch unit (05_output_watches.md): the condition of each kind (O32), the evaluation of an output by one
watch (O33), and the watch commands with their whole next state (O34). -/

namespace Sys2Proof.Machine

/-! ## The condition (R84) -/

theorem Watch.condition_above {w : Watch} (h : w.kind = .above) (v : Output) :
    w.condition v = true ↔ w.high.toInt < v.toInt := by
  rw [Watch.condition, h]
  exact BitVec.slt_iff_toInt_lt

theorem Watch.condition_below {w : Watch} (h : w.kind = .below) (v : Output) :
    w.condition v = true ↔ v.toInt < w.low.toInt := by
  rw [Watch.condition, h]
  exact BitVec.slt_iff_toInt_lt

theorem Watch.condition_outside {w : Watch} (h : w.kind = .outside) (v : Output) :
    w.condition v = true ↔ v.toInt < w.low.toInt ∨ w.high.toInt < v.toInt := by
  rw [Watch.condition, h]
  exact (Bool.or_eq_true _ _).to_iff.trans (or_congr BitVec.slt_iff_toInt_lt BitVec.slt_iff_toInt_lt)

theorem Watch.condition_inside {w : Watch} (h : w.kind = .inside) (v : Output) :
    w.condition v = true ↔ w.low.toInt ≤ v.toInt ∧ v.toInt ≤ w.high.toInt := by
  rw [Watch.condition, h]
  exact (Bool.and_eq_true _ _).to_iff.trans (and_congr BitVec.sle_iff_toInt_le BitVec.sle_iff_toInt_le)

/-- Settles O32, kind by kind. -/
theorem watchConditionComparesSigned : Obligations.WatchConditionComparesSigned := fun _ v =>
  ⟨fun h => Watch.condition_above h v, fun h => Watch.condition_below h v, fun h => Watch.condition_outside h v,
    fun h => Watch.condition_inside h v⟩

/-! ## The rows of the table (R88) -/

section

variable {w : Watch} {v : Output}

/-- A run count changed, with the state named that stays. -/
theorem Watch.run_eq {st : WatchState} (h : w.state = st) (n : Nat) :
    { w with run := n } = { w with state := st, run := n } := by
  rw [← h]

theorem Watch.evaluate_off (h : w.state = .off) : w.evaluate v = (w, .nothing) := by
  rw [Watch.evaluate, h]

theorem Watch.evaluate_clear_counts (h : w.state = .clear) (met : w.condition v = true)
    (short : w.run + 1 < w.hold) :
    w.evaluate v = ({ w with state := .clear, run := w.run + 1 }, .nothing) := by
  rw [Watch.evaluate, ← Watch.run_eq h, h]
  exact (if_pos met).trans (if_pos short)

theorem Watch.evaluate_clear_trips (h : w.state = .clear) (met : w.condition v = true)
    (full : w.run + 1 = w.hold) : w.evaluate v = ({ w with state := .tripped, run := 0 }, .trip) := by
  rw [Watch.evaluate, h]
  exact (if_pos met).trans (if_neg full.not_lt)

theorem Watch.evaluate_clear_unmet (h : w.state = .clear) (unmet : w.condition v = false) :
    w.evaluate v = ({ w with state := .clear, run := 0 }, .nothing) := by
  rw [Watch.evaluate, ← Watch.run_eq h, h]
  exact if_neg (Bool.eq_false_iff.1 unmet)

theorem Watch.evaluate_tripped_counts (h : w.state = .tripped) (unmet : w.condition v = false)
    (short : w.run + 1 < w.release) :
    w.evaluate v = ({ w with state := .tripped, run := w.run + 1 }, .nothing) := by
  rw [Watch.evaluate, ← Watch.run_eq h, h]
  exact (if_neg (Bool.eq_false_iff.1 unmet)).trans (if_pos short)

theorem Watch.evaluate_tripped_clears (h : w.state = .tripped) (unmet : w.condition v = false)
    (full : w.run + 1 = w.release) : w.evaluate v = ({ w with state := .clear, run := 0 }, .clear) := by
  rw [Watch.evaluate, h]
  exact (if_neg (Bool.eq_false_iff.1 unmet)).trans (if_neg full.not_lt)

theorem Watch.evaluate_tripped_met (h : w.state = .tripped) (met : w.condition v = true) :
    w.evaluate v = ({ w with state := .tripped, run := 0 }, .nothing) := by
  rw [Watch.evaluate, ← Watch.run_eq h, h]
  exact if_pos met

end

/-! ## One evaluation of an output (R87, R89, R90) -/

/-- The notices of a verdict (R89). -/
def Verdict.raised (w : WatchId) (c : ChanId) (index : OutIndex) (v : Output) : Verdict → List Notice
  | .nothing => []
  | .trip => [.watchTrip w c index v]
  | .clear => [.watchClear w c index v]

/-- The stop requests of a verdict on a watch with an action (R90). -/
def Verdict.stops (a : WatchAction) (w : WatchId) : Verdict → List WatchId
  | .nothing => []
  | .trip => if a = .notifyStop then [w] else []
  | .clear => []

section

variable {e : Evaluation} {c : ChanId} {w : WatchId} (index : OutIndex) (v : Output)

theorem Evaluation.step_other (h : (e.state.watch w).channel ≠ c) : e.step c index v w = e := if_neg h

/-- On an output of its channel the watch takes the row's record, and the row's verdict says what is raised. -/
theorem Evaluation.step_channel {r : Watch} {verdict : Verdict} (here : (e.state.watch w).channel = c)
    (row : (e.state.watch w).evaluate v = (r, verdict)) :
    e.step c index v w =
      ⟨{ e.state with watches := e.state.watches.set w.val r }, e.raised ++ verdict.raised w c index v,
        e.stops ++ verdict.stops (e.state.watch w).action w⟩ := by
  unfold Evaluation.step
  dsimp only
  rw [if_pos here, row]
  cases verdict with
  | nothing => simp only [Verdict.raised, Verdict.stops, List.append_nil]; rfl
  | trip => rfl
  | clear => simp only [Verdict.stops, List.append_nil]; rfl

theorem Evaluation.step_off (h : (e.state.watch w).state = .off) : e.step c index v w = e := by
  by_cases here : (e.state.watch w).channel = c
  · have same : e.state.watches.set w.val (e.state.watch w) = e.state.watches := Vector.set_getElem_self w.isLt
    rw [Evaluation.step_channel index v here (Watch.evaluate_off h), same]
    simp only [Verdict.raised, Verdict.stops, List.append_nil]
  · exact Evaluation.step_other index v here

/-- A row of the table, as the record, the notices and the stop requests that it leaves. -/
theorem Evaluation.step_row {r : Watch} {verdict : Verdict} (here : (e.state.watch w).channel = c)
    (row : (e.state.watch w).evaluate v = (r, verdict)) :
    (e.step c index v w).state = { e.state with watches := e.state.watches.set w.val r } ∧
      (e.step c index v w).raised = e.raised ++ verdict.raised w c index v ∧
      (e.step c index v w).stops = e.stops ++ verdict.stops (e.state.watch w).action w := by
  rw [Evaluation.step_channel index v here row]
  exact ⟨rfl, rfl, rfl⟩

end

/-- Settles O33, row by row. -/
theorem watchEvaluationFollowsItsTable : Obligations.WatchEvaluationFollowsItsTable := by
  intro e c index v w k t
  refine ⟨Evaluation.step_other index v, Evaluation.step_off index v, fun here => ?_⟩
  intro becomes
  refine ⟨fun h met short => ?_, fun h met full => ?_, fun h unmet => ?_, fun h unmet short => ?_,
    fun h unmet full => ?_, fun h met => ?_⟩
  · exact Evaluation.step_row index v here (Watch.evaluate_clear_counts h met short)
  · exact Evaluation.step_row index v here (Watch.evaluate_clear_trips h met full)
  · exact Evaluation.step_row index v here (Watch.evaluate_clear_unmet h unmet)
  · exact Evaluation.step_row index v here (Watch.evaluate_tripped_counts h unmet short)
  · exact Evaluation.step_row index v here (Watch.evaluate_tripped_clears h unmet full)
  · exact Evaluation.step_row index v here (Watch.evaluate_tripped_met h met)

/-! ## The fields of a WATCH_SET payload (R85, section 9.3) -/

theorem WatchKind.ofByte_eq_some {b : Byte} {k : WatchKind} : WatchKind.ofByte b = some k ↔ b = k.code := by
  constructor
  · intro h
    have hb : k.code = b := by simpa using List.find?_some h
    exact hb.symm
  · rintro rfl
    cases k <;> rfl

theorem WatchKind.code_lt (k : WatchKind) : k.code.toNat < 4 := by
  cases k <;> decide

theorem WatchAction.ofByte_eq_some {b : Byte} {a : WatchAction} : WatchAction.ofByte b = some a ↔ b = a.code := by
  constructor
  · intro h
    have hb : a.code = b := by simpa using List.find?_some h
    exact hb.symm
  · rintro rfl
    cases a <;> rfl

theorem WatchAction.code_lt (a : WatchAction) : a.code.toNat < 2 := by
  cases a <;> decide

/-- The four-byte field that carries a value reads back as that value. -/
theorem wordBytes_append (x : BitVec 32) :
    (x.extractLsb' 24 8 ++ x.extractLsb' 16 8 : Half) ++ (x.extractLsb' 8 8 ++ x.extractLsb' 0 8 : Half) = x := by
  have upper : x.extractLsb' 24 8 ++ x.extractLsb' 16 8 = x.extractLsb' 16 16 :=
    BitVec.extractLsb'_append_extractLsb'_eq_extractLsb' rfl
  have lower : x.extractLsb' 8 8 ++ x.extractLsb' 0 8 = x.extractLsb' 0 16 :=
    BitVec.extractLsb'_append_extractLsb'_eq_extractLsb' rfl
  have whole : x.extractLsb' 16 16 ++ x.extractLsb' 0 16 = x.extractLsb' 0 32 :=
    BitVec.extractLsb'_append_extractLsb'_eq_extractLsb' rfl
  rw [upper, lower, whole, BitVec.extractLsb'_eq_self]

/-- The range of a limit (section 9.3). -/
def InLimits (x : BitVec 32) : Prop := -2 ^ 23 ≤ x.toInt ∧ x.toInt ≤ 2 ^ 23 - 1

theorem limitOf_eq_some {x : BitVec 32} {y : Output} :
    limitOf x = some y ↔ InLimits x ∧ y = BitVec.ofInt 24 x.toInt := by
  have low24 : x.truncate 24 = BitVec.ofInt 24 x.toInt := (x.signExtend_eq_setWidth_of_le (by decide)).symm
  have bounds : (-(2 ^ 23) ≤ x.toInt ∧ x.toInt < 2 ^ 23) ↔ InLimits x := and_congr Iff.rfl (by omega)
  unfold limitOf
  rw [low24, Option.ite_none_right_eq_some, bounds, Option.some_inj, eq_comm (a := BitVec.ofInt 24 _)]

/-- The order that a kind asks of its limits, read on the values the payload carries. -/
theorem limitsOrdered_iff {low high : BitVec 32} (hl : InLimits low) (hh : InLimits high) (k : WatchKind) :
    limitsOrdered k (BitVec.ofInt 24 low.toInt) (BitVec.ofInt 24 high.toInt) = true ↔
      (k.code = 2 ∨ k.code = 3 → low.toInt ≤ high.toInt) := by
  have within {x : BitVec 32} (h : InLimits x) : (BitVec.ofInt 24 x.toInt).toInt = x.toInt :=
    toInt_ofInt24 ⟨h.1, Int.lt_of_le_sub_one h.2⟩
  have ordered : (BitVec.ofInt 24 low.toInt).sle (BitVec.ofInt 24 high.toInt) = true ↔ low.toInt ≤ high.toInt := by
    rw [BitVec.sle_iff_toInt_le, within hl, within hh]
  cases k with
  | above => exact ⟨fun _ h => absurd h (by decide), fun _ => rfl⟩
  | below => exact ⟨fun _ h => absurd h (by decide), fun _ => rfl⟩
  | outside => exact ordered.trans ⟨fun h _ => h, fun h => h (.inl rfl)⟩
  | inside => exact ordered.trans ⟨fun h _ => h, fun h => h (.inr rfl)⟩

section

variable {w c kind action hold release : Byte} {low high : BitVec 32}

/-- A WATCH_SET payload (section 9.3). -/
def watchPayload (w c kind action : Byte) (low high : BitVec 32) (hold release : Byte) : List Byte :=
  [w, c, kind, action] ++ wordBytes low ++ wordBytes high ++ [hold, release]

/-- The record that an accepted WATCH_SET leaves. -/
def Watch.armed (x : ChanId) (k : WatchKind) (a : WatchAction) (low high : BitVec 32) (hold release : Byte) : Watch :=
  { state := .clear, channel := x, kind := k, low := BitVec.ofInt 24 low.toInt, high := BitVec.ofInt 24 high.toInt
    hold := hold.toNat, release := release.toNat, action := a, run := 0 }

/-- The six checks of R85, and the record that they let through. -/
theorem watchOperands_eq_some {i : WatchId} {r : Watch} :
    watchOperands (watchPayload w c kind action low high hold release) = some (i, r) ↔
      ∃ (x : ChanId) (k : WatchKind) (a : WatchAction), indexOf 8 w = some i ∧ indexOf 16 c = some x ∧
        kind = k.code ∧ action = a.code ∧ InLimits low ∧ InLimits high ∧
        (k.code = 2 ∨ k.code = 3 → low.toInt ≤ high.toInt) ∧ hold ≠ 0 ∧ release ≠ 0 ∧ r = Watch.armed x k a low high hold release := by
  have lowField : wordAt (watchPayload w c kind action low high hold release) 4 = low := wordBytes_append low
  have highField : wordAt (watchPayload w c kind action low high hold release) 8 = high := wordBytes_append high
  unfold watchOperands
  rw [lowField, highField]
  simp only [Option.bind_eq_bind, Option.bind_eq_some_iff, WatchKind.ofByte_eq_some,
    WatchAction.ofByte_eq_some, limitOf_eq_some]
  constructor
  · rintro ⟨i', hw, x, hc, k, hk, a, ha, _, ⟨hl, rfl⟩, _, ⟨hh, rfl⟩, passed⟩
    rw [Option.ite_none_right_eq_some, Bool.and_eq_true, Bool.and_eq_true, bne_iff_ne, bne_iff_ne,
      limitsOrdered_iff hl hh] at passed
    obtain ⟨⟨⟨order, hold⟩, release⟩, record⟩ := passed
    obtain ⟨rfl, rfl⟩ := Prod.mk.inj (Option.some.inj record)
    exact ⟨x, k, a, hw, hc, hk, ha, hl, hh, order, hold, release, rfl⟩
  · rintro ⟨x, k, a, hw, hc, hk, ha, hl, hh, order, hold, release, rfl⟩
    refine ⟨i, hw, x, hc, k, hk, a, ha, _, ⟨hl, rfl⟩, _, ⟨hh, rfl⟩, ?_⟩
    rw [Option.ite_none_right_eq_some, Bool.and_eq_true, Bool.and_eq_true, bne_iff_ne, bne_iff_ne,
      limitsOrdered_iff hl hh]
    exact ⟨⟨⟨order, hold⟩, release⟩, rfl⟩

end

/-! ## What the owners of the watch commands answer (R85, R86, R92) -/

section

variable {p : List Byte} {s : State} {w : WatchId}

theorem watchSetOwner_refused (s : State) (h : watchOperands p = none) :
    watchSetOwner p s = .refuse .watchSet .badArg s := by
  rw [watchSetOwner, h]

theorem watchSetOwner_accepted {r : Watch} (h : watchOperands p = some (w, r)) :
    watchSetOwner p s = .done .ok (s.modWatch w fun _ => r) := by
  rw [watchSetOwner, h]

theorem watchOffOwner_noWatch (s : State) (h : 8 ≤ (byteAt p 0).toNat) :
    watchOffOwner p s = .refuse .watchOff .badArg s := by
  rw [watchOffOwner, indexOf_eq_none.2 h]

theorem watchOffOwner_watch (h : indexOf 8 (byteAt p 0) = some w) :
    watchOffOwner p s = .done .ok (s.modWatch w fun r => { r with state := .off, run := 0 }) := by
  rw [watchOffOwner, h]

theorem watchQueryOwner_noWatch (s : State) (h : 8 ≤ (byteAt p 0).toNat) :
    watchQueryOwner p s = .refuse .watchQuery .badArg s := by
  rw [watchQueryOwner, indexOf_eq_none.2 h]

theorem watchQueryOwner_watch (h : indexOf 8 (byteAt p 0) = some w) :
    watchQueryOwner p s = ⟨s, .ok, (s.watch w).report, []⟩ := by
  rw [watchQueryOwner, h]

end

theorem reservedOk_watchQuery {n flag : Byte} (h : flag.toNat < 2) : reservedOk .watchQuery [n, flag] = true :=
  decide_eq_true h

/-! ## O34 -/

section

variable {s : State} {tag : Byte}

theorem exec_watchSet_refused {w c kind action hold release : Byte} {low high : BitVec 32}
    (ht : s.Takes ⟨0x40, tag, watchPayload w c kind action low high hold release⟩)
    (h : watchOperands (watchPayload w c kind action low high hold release) = none) :
    exec (.watchSet tag (watchPayload w c kind action low high hold release)) s =
      .next (s.answered tag 0x40 .badArg []) :=
  congrArg Host.Outcome.next (State.take_refused (c := .watchSet) ht rfl rfl (watchSetOwner_refused _ h))

theorem exec_watchSet_accepted {w c kind action hold release : Byte} {low high : BitVec 32} {i : WatchId} {r : Watch}
    (ht : s.Takes ⟨0x40, tag, watchPayload w c kind action low high hold release⟩)
    (h : watchOperands (watchPayload w c kind action low high hold release) = some (i, r)) :
    exec (.watchSet tag (watchPayload w c kind action low high hold release)) s =
      .next ({ s with watches := s.watches.set i.val r }.answered tag 0x40 .ok []) :=
  congrArg Host.Outcome.next
    (State.take_next (c := .watchSet) (t := s.modWatch i fun _ => r) (ns := []) ht rfl rfl (watchSetOwner_accepted h))

end

/-- Settles O34, by what the owners of the three watch commands answer in each case. -/
theorem watchCommandsSetClearAndReport : Obligations.WatchCommandsSetClearAndReport := by
  refine ⟨fun s tag w c kind action hold release low high => ?_, fun s tag n ht hn => ?_, fun s tag w ht => ?_,
    fun s tag n flag ht hf hn => ?_, fun s tag flag w ht hf => ?_⟩
  · intro p ht limit accepted
    refine ⟨fun bad => exec_watchSet_refused ht (Option.eq_none_iff_forall_ne_some.2 fun ⟨i, r⟩ h => bad ?_), ?_⟩
    · obtain ⟨x, k, a, hw, hc, rfl, rfl, hl, hh, order, nonzero, released, -⟩ := watchOperands_eq_some.1 h
      exact ⟨indexOf_lt hw, indexOf_lt hc, k.code_lt, a.code_lt, hl, hh, order, nonzero, released⟩
    · rintro i x k a ⟨-, -, -, -, hl, hh, order, nonzero, released⟩ rfl rfl rfl rfl armed
      exact exec_watchSet_accepted ht (watchOperands_eq_some.2 ⟨x, k, a, indexOf_natByte i (by decide),
        indexOf_natByte x (by decide), rfl, rfl, hl, hh, order, nonzero, released, rfl⟩)
  · exact congrArg Host.Outcome.next (State.take_refused (c := .watchOff) ht rfl rfl (watchOffOwner_noWatch _ hn))
  · exact congrArg Host.Outcome.next (State.take_next (c := .watchOff) (ns := [])
      (t := s.modWatch w fun r => { r with state := .off, run := 0 }) ht rfl rfl
      (watchOffOwner_watch (indexOf_natByte w (by decide))))
  · exact congrArg Host.Outcome.next
      (State.take_refused (c := .watchQuery) ht rfl (reservedOk_watchQuery hf) (watchQueryOwner_noWatch _ hn))
  · exact congrArg Host.Outcome.next (State.take_next (c := .watchQuery) (ns := []) ht rfl (reservedOk_watchQuery hf)
      (watchQueryOwner_watch (indexOf_natByte w (by decide))))

end Sys2Proof.Machine
end

section
/-! PROOFS. The window law seen from one channel: the places in which its batches are named, the law of each batch by
its place, and what a change of some batches has to meet to keep the law (R95, R101, R105, R107). -/

namespace Sys2Proof.Machine

/-! ## A batch and its place -/

/-- Where a batch is named: in the ready order, in the in-flight order, in the resend list, or as the source of the
transmission in progress. -/
structure Places where
  ready    : Prop
  inflight : Prop
  listed   : Prop
  onLine   : Prop

/-- The outputs of a batch that has left FILLING: one to N, and fewer than N only with FINAL. -/
structure BatchSlot.Whole (t : BatchSlot) (g : ChanConfig) : Prop where
  pos   : 1 ≤ t.outputs.length
  le    : t.outputs.length ≤ g.batchSize
  final : t.outputs.length < g.batchSize → t.flags.final = true

/-- A batch is where its state puts it: FREE; FILLING; READY and queued, or being sent in auto-acknowledge mode;
INFLIGHT and being sent, waiting on its ack timer, or listed to be sent again. -/
inductive BatchSlot.Placed (g : ChanConfig) (p : Places) (t : BatchSlot) : Prop
  | free (state : t.state = .free) (unsent : t.beingSent = false) (nowhere : ¬ p.ready ∧ ¬ p.inflight ∧ ¬ p.listed)
  | filling (state : t.state = .filling) (unsent : t.beingSent = false)
      (nowhere : ¬ p.ready ∧ ¬ p.inflight ∧ ¬ p.listed)
      (size : 1 ≤ t.outputs.length ∧ t.outputs.length < g.batchSize)
  | queued (state : t.state = .ready) (unsent : t.beingSent = false) (here : p.ready ∧ ¬ p.inflight ∧ ¬ p.listed)
      (whole : t.Whole g)
  | leaving (state : t.state = .ready) (sent : t.beingSent = true) (nowhere : ¬ p.ready ∧ ¬ p.inflight ∧ ¬ p.listed)
      (onLine : p.onLine) (whole : t.Whole g)
  | sending (state : t.state = .inflight) (sent : t.beingSent = true) (timer : t.timer = .stopped)
      (here : ¬ p.ready ∧ p.inflight ∧ ¬ p.listed) (onLine : p.onLine) (whole : t.Whole g)
  | waiting (state : t.state = .inflight) (unsent : t.beingSent = false) (timer : t.timer ≠ .stopped)
      (here : ¬ p.ready ∧ p.inflight ∧ ¬ p.listed) (whole : t.Whole g)
  | listed (state : t.state = .inflight) (unsent : t.beingSent = false) (timer : t.timer = .stopped)
      (here : ¬ p.ready ∧ p.inflight ∧ p.listed) (whole : t.Whole g)

/-- A batch that is being sent is on the line. -/
theorem BatchSlot.Placed.onLine_of_sent {g : ChanConfig} {p : Places} {t : BatchSlot} (h : t.Placed g p)
    (hs : t.beingSent = true) : p.onLine := by
  cases h <;> simp_all

/-- Only what is being sent has to be on the line. -/
theorem BatchSlot.Placed.move_line {g : ChanConfig} {p : Places} {t : BatchSlot} {l : Prop} (h : t.Placed g p)
    (hl : t.beingSent = true → l) : t.Placed g { p with onLine := l } := by
  cases h with
  | free state unsent nowhere => exact .free state unsent nowhere
  | filling state unsent nowhere size => exact .filling state unsent nowhere size
  | queued state unsent here whole => exact .queued state unsent here whole
  | leaving state sent nowhere _ whole => exact .leaving state sent nowhere (hl sent) whole
  | sending state sent timer here _ whole => exact .sending state sent timer here (hl sent) whole
  | waiting state unsent timer here whole => exact .waiting state unsent timer here whole
  | listed state unsent timer here whole => exact .listed state unsent timer here whole

theorem BatchSlot.Placed.free_of_state {g : ChanConfig} {p : Places} {t : BatchSlot} (h : t.Placed g p)
    (hs : t.state = .free) : t.beingSent = false ∧ ¬ p.ready ∧ ¬ p.inflight ∧ ¬ p.listed := by
  cases h <;> simp_all

theorem BatchSlot.Placed.filling_of_state {g : ChanConfig} {p : Places} {t : BatchSlot} (h : t.Placed g p)
    (hs : t.state = .filling) : t.beingSent = false ∧ (¬ p.ready ∧ ¬ p.inflight ∧ ¬ p.listed) ∧
      1 ≤ t.outputs.length ∧ t.outputs.length < g.batchSize := by
  cases h <;> simp_all

theorem BatchSlot.Placed.queued_of_ready {g : ChanConfig} {p : Places} {t : BatchSlot} (h : t.Placed g p)
    (hr : p.ready) : t.state = .ready ∧ t.beingSent = false ∧ ¬ p.inflight ∧ ¬ p.listed ∧ t.Whole g := by
  cases h <;> simp_all

theorem BatchSlot.Placed.listed_of_listed {g : ChanConfig} {p : Places} {t : BatchSlot} (h : t.Placed g p)
    (hr : p.listed) : t.state = .inflight ∧ t.beingSent = false ∧ t.timer = .stopped ∧ ¬ p.ready ∧ p.inflight ∧
      t.Whole g := by
  cases h <;> simp_all

/-! ## One channel and its batches -/

/-- What the window law reads of one channel; `named` says that the dispatch in flight has an entry for it. -/
structure BatchView where
  state   : ChanState
  config  : ChanConfig
  batches : ChanDelivery
  listed  : BatchId → Prop
  onLine  : BatchId → Prop
  named   : Prop

def BatchView.places (v : BatchView) (b : BatchId) : Places :=
  ⟨b ∈ v.batches.readyOrder, b ∈ v.batches.inflightOrder, v.listed b, v.onLine b⟩

/-- The window law of one channel. -/
structure BatchView.Law (v : BatchView) : Prop where
  placed  : ∀ b, (v.batches.slot b).Placed v.config (v.places b)
  filling : ∀ a b, (v.batches.slot a).state = .filling → (v.batches.slot b).state = .filling → a = b
  nodup   : v.batches.readyOrder.Nodup ∧ v.batches.inflightOrder.Nodup
  window  : v.batches.inflightOrder.length ≤ v.config.window
  autoAck : v.config.autoAck = true → v.batches.inflightOrder = []
  ranges  : 1 ≤ v.config.batchSize ∧ 1 ≤ v.config.window
  empty   : v.state.inRun = false → ∀ b, (v.batches.slot b).state = .free
  drain   : v.batches.drainWatch = true →
    v.state = .stopping ∧ (∀ b, (v.batches.slot b).state ≠ .filling) ∧ ¬ v.named

/-- A channel with a batch is in a run. -/
theorem BatchView.Law.inRun {v : BatchView} (h : v.Law) {b : BatchId} (hb : (v.batches.slot b).state ≠ .free) :
    v.state.inRun = true := by
  by_contra hn
  exact hb (h.empty (by simpa using hn) b)

/-- Only a STOPPING channel has its drain watched. -/
theorem BatchView.Law.undrained {v : BatchView} (h : v.Law) (hs : v.state ≠ .stopping) :
    v.batches.drainWatch = false := by
  by_contra hn
  exact hs (h.drain (by simpa using hn)).1

/-- `v'` is `v` with the batches `bs` changed, each to one that is where its state puts it; one that becomes FILLING
is the only one, and the drain is not watched. -/
structure BatchView.Changes (v : BatchView) (bs : List BatchId) (v' : BatchView) : Prop where
  state   : v'.state = v.state := by rfl
  config  : v'.config = v.config := by rfl
  named   : v'.named = v.named := by rfl
  watch   : v'.batches.drainWatch = v.batches.drainWatch := by rfl
  inRun   : v.state.inRun = true
  others  : ∀ a, a ∉ bs → v'.batches.slot a = v.batches.slot a ∧ v'.places a = v.places a
  placed  : ∀ b ∈ bs, (v'.batches.slot b).Placed v.config (v'.places b)
  filling : ∀ b ∈ bs, (v'.batches.slot b).state = .filling →
    v.batches.drainWatch = false ∧ ∀ a, a ≠ b → (v'.batches.slot a).state ≠ .filling
  nodup   : v'.batches.readyOrder.Nodup ∧ v'.batches.inflightOrder.Nodup
  window  : v'.batches.inflightOrder.length ≤ v.config.window
  autoAck : v.config.autoAck = true → v'.batches.inflightOrder = []

theorem BatchView.Law.change {v v' : BatchView} (h : v.Law) {bs : List BatchId} (r : v.Changes bs v') : v'.Law where
  placed a := by
    rw [r.config]
    by_cases ha : a ∈ bs
    · exact r.placed a ha
    · rw [(r.others a ha).1, (r.others a ha).2]
      exact h.placed a
  filling a b ha hb := by
    by_contra hne
    by_cases hm : a ∈ bs
    · exact (r.filling a hm ha).2 b (Ne.symm hne) hb
    · by_cases hm' : b ∈ bs
      · exact (r.filling b hm' hb).2 a hne ha
      · rw [(r.others a hm).1] at ha
        rw [(r.others b hm').1] at hb
        exact hne (h.filling a b ha hb)
  nodup := r.nodup
  window := by rw [r.config]; exact r.window
  autoAck := by rw [r.config]; exact r.autoAck
  ranges := by rw [r.config]; exact h.ranges
  empty hn := by
    rw [r.state, r.inRun] at hn
    exact nomatch hn
  drain hd := by
    rw [r.watch] at hd
    obtain ⟨hs, hf, hn⟩ := h.drain hd
    refine ⟨r.state.trans hs, fun b hb => ?_, by rw [r.named]; exact hn⟩
    by_cases hm : b ∈ bs
    · exact Bool.false_ne_true ((r.filling b hm hb).1.symm.trans hd)
    · rw [(r.others b hm).1] at hb
      exact hf b hb

/-- What does not depend on the numbers a delivery record counts with: the law reads the slots, the orders and the
drain watch. -/
theorem BatchView.Law.recount {v : BatchView} (h : v.Law) {d : ChanDelivery} (hs : d.slots = v.batches.slots)
    (hr : d.readyOrder = v.batches.readyOrder) (hi : d.inflightOrder = v.batches.inflightOrder)
    (hw : d.drainWatch = v.batches.drainWatch) : BatchView.Law { v with batches := d } := by
  obtain ⟨state, config, ⟨slots, q, n, ready, inflight, watch⟩, listed, onLine, named⟩ := v
  obtain ⟨slots', q', n', ready', inflight', watch'⟩ := d
  dsimp only at hs hr hi hw
  subst hs hr hi hw
  exact ⟨h.placed, h.filling, h.nodup, h.window, h.autoAck, h.ranges, h.empty, h.drain⟩

/-! ## No batch -/

/-- The channel holds no batch and none of its places is taken. -/
structure BatchView.Vacant (v : BatchView) : Prop where
  free   : ∀ b, (v.batches.slot b).state = .free ∧ (v.batches.slot b).beingSent = false
  orders : v.batches.readyOrder = [] ∧ v.batches.inflightOrder = []
  watch  : v.batches.drainWatch = false
  listed : ∀ b, ¬ v.listed b

theorem BatchView.Vacant.law {v : BatchView} (h : v.Vacant) (hr : 1 ≤ v.config.batchSize ∧ 1 ≤ v.config.window) :
    v.Law where
  placed b := .free (h.free b).1 (h.free b).2 (by simp [BatchView.places, h.orders, h.listed])
  filling a b ha := by simp [(h.free a).1] at ha
  nodup := by simp [h.orders]
  window := by simp [h.orders]
  autoAck _ := h.orders.2
  ranges := hr
  empty _ b := (h.free b).1
  drain hd := by simp [h.watch] at hd

/-- Without batches the law leaves nothing in any place; the drain watch may be off in what follows. -/
theorem BatchView.Law.vacant {v v' : BatchView} (h : v.Law) (hf : ∀ b, (v.batches.slot b).state = .free)
    (hs : ∀ b, v'.batches.slot b = v.batches.slot b)
    (ho : v'.batches.readyOrder = v.batches.readyOrder ∧ v'.batches.inflightOrder = v.batches.inflightOrder)
    (hw : v'.batches.drainWatch = false) (hl : v'.listed = v.listed) : v'.Vacant := by
  have free (b : BatchId) := (h.placed b).free_of_state (hf b)
  refine ⟨fun b => ?_, ?_, hw, fun b => ?_⟩
  · rw [hs]; exact ⟨hf b, (free b).1⟩
  · rw [ho.1, ho.2]
    exact ⟨List.eq_nil_iff_forall_not_mem.2 fun b => (free b).2.1,
      List.eq_nil_iff_forall_not_mem.2 fun b => (free b).2.2.1⟩
  · rw [hl]; exact (free b).2.2.2

/-- A channel outside a run may be configured and may begin or leave a run. -/
theorem BatchView.Law.outside {v v' : BatchView} (h : v.Law) (hs : v.state.inRun = false)
    (hb : ∀ b, v'.batches.slot b = v.batches.slot b)
    (ho : v'.batches.readyOrder = v.batches.readyOrder ∧ v'.batches.inflightOrder = v.batches.inflightOrder)
    (hw : v'.batches.drainWatch = v.batches.drainWatch) (hl : v'.listed = v.listed)
    (hr : 1 ≤ v'.config.batchSize ∧ 1 ≤ v'.config.window) : v'.Law := by
  have undrained := h.undrained (by rintro e; rw [e] at hs; exact nomatch hs)
  exact (h.vacant (h.empty hs) hb ho (hw.trans undrained) hl).law hr

end Sys2Proof.Machine
end

section
/-! PROOFS. The window law is the law of every channel's view of its batches, with no batch listed twice to be sent
again and one entry a channel in the dispatch in flight. -/

namespace Sys2Proof.Machine

/-! ## Counts of slots -/

theorem ChanDelivery.count_eq_card (d : ChanDelivery) (st : SlotState) :
    d.count st = (Finset.univ.filter fun b => (d.slot b).state = st).card := by
  rw [ChanDelivery.count, List.countP_eq_length_filter, ← List.toFinset_card_of_nodup
    ((List.nodup_finRange 4).filter _), List.toFinset_filter]
  congr 1
  ext b
  simp

theorem ChanDelivery.count_le_one {d : ChanDelivery} {st : SlotState} :
    d.count st ≤ 1 ↔ ∀ a b, (d.slot a).state = st → (d.slot b).state = st → a = b := by
  rw [d.count_eq_card, Finset.card_le_one]
  simp only [Finset.mem_filter, Finset.mem_univ, true_and]
  exact ⟨fun h a b ha hb => h a ha b hb, fun h a ha b hb => h a b ha hb⟩

theorem ChanDelivery.count_eq_four {d : ChanDelivery} {st : SlotState} :
    d.count st = 4 ↔ ∀ b, (d.slot b).state = st := by
  have h : (List.finRange 4).length = 4 := List.length_finRange
  simpa [ChanDelivery.count, h] using
    (List.countP_eq_length (p := fun b => (d.slot b).state == st) (l := List.finRange 4))

/-- The in-flight order is as long as there are INFLIGHT batches. -/
theorem ChanDelivery.count_eq_length {d : ChanDelivery} {st : SlotState} {l : List BatchId} (hn : l.Nodup)
    (h : ∀ b, b ∈ l ↔ (d.slot b).state = st) : d.count st = l.length := by
  rw [d.count_eq_card, ← List.toFinset_card_of_nodup hn]
  congr 1
  ext b
  simp [h]

/-! ## The view of a state -/

/-- The transmission in progress was built from batch `b` of channel `c`. -/
def State.onLine (s : State) (c : ChanId) (b : BatchId) : Prop :=
  ∃ t, s.arbiter.transmission = some t ∧ (t.source = .batch c b ∨ t.source = .resend c b)

/-- The dispatch in flight has an entry for channel `c`. -/
def State.named (s : State) (c : ChanId) : Prop :=
  ∃ x, s.engine.dispatch = some x ∧ ∃ e ∈ x.snapshot, e.channel = c

/-- What the window law reads of channel `c`, with the channels that have an entry left to settle given apart, for a
completion settles its entries one by one. -/
def State.view (s : State) (named : ChanId → Prop) (c : ChanId) : BatchView where
  state   := (s.chan c).state
  config  := (s.chan c).config
  batches := s.deliv c
  listed b := (c, b) ∈ s.resend
  onLine  := s.onLine c
  named   := named c

/-- Every channel obeys its window law, and no batch is listed twice to be sent again. -/
structure State.Windowed (named : ChanId → Prop) (s : State) : Prop where
  law    : ∀ c, (s.view named c).Law
  resend : s.resend.Nodup

/-- The dispatch in flight has one entry a channel. -/
def State.OneEntry (s : State) : Prop :=
  ∀ d, s.engine.dispatch = some d → (d.snapshot.map (·.channel)).Nodup

theorem State.named_iff {s : State} {c : ChanId} : s.named c ↔ ∃ e, s.inSnapshot e ∧ e.channel = c :=
  ⟨fun ⟨x, hx, e, he, hc⟩ => ⟨e, ⟨x, hx, he⟩, hc⟩, fun ⟨e, ⟨x, hx, he⟩, hc⟩ => ⟨x, hx, e, he, hc⟩⟩

theorem State.windowLaw_view {s : State} (h : s.WindowLaw) (c : ChanId) : (s.view s.named c).Law := by
  obtain ⟨filling, unsent, ⟨readyNodup, mem_ready⟩, inflightNodup, mem_inflight⟩ := h.delivery.batches c
  obtain ⟨sizes, notFull, full, window, autoAck⟩ := h.fits c
  have hlisted (b : BatchId) (hb : (c, b) ∈ s.resend) : ((s.deliv c).slot b).state = .inflight :=
    h.delivery.listed.2 (c, b) hb
  have length := ChanDelivery.count_eq_length inflightNodup mem_inflight
  refine ⟨fun b => ?_, ChanDelivery.count_le_one.1 filling, ⟨readyNodup, inflightNodup⟩, length ▸ window,
    fun ha => List.length_eq_zero_iff.1 (length ▸ autoAck ha), h.ranges c,
    fun hr => ChanDelivery.count_eq_four.1 (h.empty c hr), fun hd => ?_⟩
  · have place : ((s.view s.named c).places b).ready = (((s.deliv c).slot b).state = .ready ∧
        ((s.deliv c).slot b).beingSent = false) ∧
        ((s.view s.named c).places b).inflight = (((s.deliv c).slot b).state = .inflight) ∧
        ((s.view s.named c).places b).listed = ((c, b) ∈ s.resend) :=
      ⟨propext (mem_ready b), propext (mem_inflight b), rfl⟩
    obtain ⟨pr, pi, pl⟩ := place
    have sent (hb : ((s.deliv c).slot b).beingSent = true) := h.delivery.sending c b hb
    have whole (hb : ((s.deliv c).slot b).state = .ready ∨ ((s.deliv c).slot b).state = .inflight) :
        ((s.deliv c).slot b).Whole (s.chan c).config := by
      have := sizes b (by rcases hb with hb | hb <;> rw [hb] <;> decide)
      exact ⟨this.1, this.2, full b hb⟩
    show ((s.deliv c).slot b).Placed (s.chan c).config _
    cases hst : ((s.deliv c).slot b).state with
    | free =>
      refine .free hst ?_ ?_
      · by_contra hb
        simpa [hst] using (sent (by simpa using hb)).1
      · rw [pr, pi, pl]
        exact ⟨by simp [hst], by simp [hst], fun hl => by simpa [hst] using hlisted b hl⟩
    | filling =>
      refine .filling hst (unsent b hst) ?_ ⟨(sizes b (by rw [hst]; decide)).1, notFull b hst⟩
      rw [pr, pi, pl]
      exact ⟨by simp [hst], by simp [hst], fun hl => by simpa [hst] using hlisted b hl⟩
    | ready =>
      have unlisted (hl : (c, b) ∈ s.resend) : False := by simpa [hst] using hlisted b hl
      cases hb : ((s.deliv c).slot b).beingSent with
      | false => exact .queued hst hb (by rw [pr, pi, pl]; simp [hst, hb]; exact unlisted) (whole (.inl hst))
      | true =>
        exact .leaving hst hb (by rw [pr, pi, pl]; simp [hst, hb]; exact unlisted) (sent hb).2 (whole (.inl hst))
    | inflight =>
      rcases h.delivery.condition c b hst with ⟨hb, ht, hl⟩ | ⟨hb, ht, hl⟩ | ⟨hb, ht, hl⟩
      · exact .sending hst hb ht (by rw [pr, pi, pl]; simp [hst, hl]) (sent hb).2 (whole (.inr hst))
      · exact .waiting hst hb ht (by rw [pr, pi, pl]; simp [hst, hl]) (whole (.inr hst))
      · exact .listed hst hb ht (by rw [pr, pi, pl]; simp [hst, hl]) (whole (.inr hst))
  · obtain ⟨hs, hf, hn⟩ := h.drain c hd
    refine ⟨hs, ChanDelivery.count_eq_zero.1 hf, fun hx => ?_⟩
    obtain ⟨e, he, hc⟩ := State.named_iff.1 hx
    exact hn e he hc

theorem State.windowLaw_iff {s : State} : s.WindowLaw ↔ s.Windowed s.named ∧ s.OneEntry := by
  refine ⟨fun h => ⟨⟨State.windowLaw_view h, h.delivery.listed.1⟩, h.entries⟩, fun ⟨⟨law, resend⟩, one⟩ => ?_⟩
  have placed (c : ChanId) (b : BatchId) :
      ((s.deliv c).slot b).Placed (s.chan c).config ((s.view s.named c).places b) := (law c).placed b
  have mem_ready (c : ChanId) (b : BatchId) : b ∈ (s.deliv c).readyOrder ↔
      ((s.deliv c).slot b).state = .ready ∧ ((s.deliv c).slot b).beingSent = false := by
    change ((s.view s.named c).places b).ready ↔ _
    cases placed c b <;> simp [*]
  have mem_inflight (c : ChanId) (b : BatchId) : b ∈ (s.deliv c).inflightOrder ↔
      ((s.deliv c).slot b).state = .inflight := by
    change ((s.view s.named c).places b).inflight ↔ _
    cases placed c b <;> simp [*]
  have length (c : ChanId) := ChanDelivery.count_eq_length (law c).nodup.2 (mem_inflight c)
  have whole (c : ChanId) (b : BatchId) (hb : ((s.deliv c).slot b).state = .ready ∨
      ((s.deliv c).slot b).state = .inflight) : ((s.deliv c).slot b).Whole (s.chan c).config := by
    cases placed c b <;> simp_all
  refine ⟨⟨fun c => ⟨ChanDelivery.count_le_one.2 (law c).filling, fun b hb => ((placed c b).filling_of_state hb).1,
    ⟨(law c).nodup.1, mem_ready c⟩, (law c).nodup.2, mem_inflight c⟩,
    ⟨resend, fun e he => ((placed e.1 e.2).listed_of_listed he).1⟩, fun c b hb => ?_, fun c b hb => ?_⟩,
    fun c => ⟨fun b hb => ?_, fun b hb => ((placed c b).filling_of_state hb).2.2.2,
      fun b hb => (whole c b hb).final, length c ▸ (law c).window, fun ha => ?_⟩,
    fun c => (law c).ranges, fun c hr => ChanDelivery.count_eq_four.2 ((law c).empty hr), fun c hd => ?_, one⟩
  · have listed : ((s.view s.named c).places b).listed ↔ (c, b) ∈ s.resend := .rfl
    unfold State.oneCondition
    rw [← listed]
    cases placed c b <;> simp_all
  · refine ⟨?_, (placed c b).onLine_of_sent hb⟩
    cases placed c b <;> simp_all
  · cases placed c b with
    | filling _ _ _ size => exact ⟨size.1, size.2.le⟩
    | free hf => exact absurd hf hb
    | _ => have := whole c b (by simp [*]); exact ⟨this.pos, this.le⟩
  · rw [length c, (law c).autoAck ha]; rfl
  · obtain ⟨hs, hf, hn⟩ := (law c).drain hd
    exact ⟨hs, ChanDelivery.count_eq_zero.2 hf, fun e he hc => hn (State.named_iff.2 ⟨e, he, hc⟩)⟩

/-! ## How the law of all channels is kept -/

variable {named : ChanId → Prop} {s t : State}

/-- A change of what is read of one channel. -/
theorem State.Windowed.at (h : s.Windowed named) (c : ChanId)
    (others : ∀ j, j ≠ c → t.view named j = s.view named j) (resend : t.resend.Nodup)
    (here : (t.view named c).Law) : t.Windowed named := by
  refine ⟨fun j => ?_, resend⟩
  by_cases hj : j = c
  · rw [hj]; exact here
  · rw [others j hj]; exact h.law j

/-- Nothing that the window law speaks of differs. -/
structure State.Aside (s t : State) : Prop where
  chan     : ∀ c, (t.chan c).state = (s.chan c).state ∧ (t.chan c).config = (s.chan c).config := by simp
  deliv    : ∀ c, t.deliv c = s.deliv c := by simp
  resend   : t.resend = s.resend := by simp
  line     : t.arbiter.transmission = s.arbiter.transmission := by simp

theorem State.Aside.refl (s : State) : s.Aside s where

theorem State.Aside.trans {u : State} (h : s.Aside t) (h' : t.Aside u) : s.Aside u where
  chan c := ⟨(h'.chan c).1.trans (h.chan c).1, (h'.chan c).2.trans (h.chan c).2⟩
  deliv c := (h'.deliv c).trans (h.deliv c)
  resend := h'.resend.trans h.resend
  line := h'.line.trans h.line

theorem State.Aside.view (h : s.Aside t) (c : ChanId) : t.view named c = s.view named c := by
  have line : t.onLine = s.onLine := by unfold State.onLine; rw [h.line]
  simp only [State.view, h.chan, h.deliv, h.resend, line]

theorem State.Windowed.aside (h : s.Windowed named) (ha : s.Aside t) : t.Windowed named :=
  ⟨fun c => by rw [ha.view]; exact h.law c, ha.resend ▸ h.resend⟩

theorem State.WindowLaw.of_windowed (hs : s.WindowLaw) (hd : t.engine.dispatch = s.engine.dispatch)
    (h : t.Windowed s.named) : t.WindowLaw := by
  refine State.windowLaw_iff.2 ⟨?_, ?_⟩
  · have : t.named = s.named := by unfold State.named; rw [hd]
    rw [this]; exact h
  · unfold State.OneEntry; rw [hd]; exact hs.entries

theorem State.WindowLaw.windowed (hs : s.WindowLaw) : s.Windowed s.named := (State.windowLaw_iff.1 hs).1

theorem State.WindowLaw.aside (hs : s.WindowLaw) (ha : s.Aside t)
    (hd : t.engine.dispatch = s.engine.dispatch := by simp) : t.WindowLaw :=
  hs.of_windowed hd (hs.windowed.aside ha)

/-- Entries are settled, and entries of channels that are not STOPPING join. -/
theorem State.Windowed.rename {named' : ChanId → Prop} (h : s.Windowed named)
    (hn : ∀ c, named' c → named c ∨ (s.chan c).state ≠ .stopping) : s.Windowed named' := by
  refine ⟨fun c => ?_, h.resend⟩
  obtain ⟨placed, filling, nodup, window, autoAck, ranges, empty, drain⟩ := h.law c
  refine ⟨placed, filling, nodup, window, autoAck, ranges, empty, fun hd => ?_⟩
  obtain ⟨hs, hf, hnn⟩ := drain hd
  exact ⟨hs, hf, fun hx => (hn c hx).elim hnn fun hne => hne hs⟩

theorem State.modDeliv_view_ne (c j : ChanId) (f : ChanDelivery → ChanDelivery) (h : j ≠ c) :
    (s.modDeliv c f).view named j = s.view named j := by
  simp only [State.view, State.modDeliv_chan, State.modDeliv_deliv_ne _ _ _ _ h, State.modDeliv_resend]
  rfl

theorem State.modDeliv_view_same (c : ChanId) (f : ChanDelivery → ChanDelivery) :
    (s.modDeliv c f).view named c = { s.view named c with batches := f (s.deliv c) } := by
  simp only [State.view, State.modDeliv_chan, State.modDeliv_deliv_same, State.modDeliv_resend]
  rfl

theorem State.modChan_view_ne (c j : ChanId) (f : Channel → Channel) (h : j ≠ c) :
    (s.modChan c f).view named j = s.view named j := by
  simp only [State.view, State.modChan_chan_ne _ _ _ _ h, State.modChan_deliv, State.modChan_resend]
  rfl

theorem State.modChan_view_same (c : ChanId) (f : Channel → Channel) :
    (s.modChan c f).view named c =
      { s.view named c with state := (f (s.chan c)).state, config := (f (s.chan c)).config } := by
  simp only [State.view, State.modChan_chan_same, State.modChan_deliv, State.modChan_resend]
  rfl

/-- The batches of one channel changed. -/
theorem State.Windowed.modDeliv (h : s.Windowed named) (c : ChanId) (f : ChanDelivery → ChanDelivery)
    (here : BatchView.Law { s.view named c with batches := f (s.deliv c) }) : (s.modDeliv c f).Windowed named :=
  h.at c (fun j hj => State.modDeliv_view_ne c j f hj) h.resend (by rw [State.modDeliv_view_same]; exact here)

/-- The batches of one channel changed, and those of them that are listed to be sent again. -/
theorem State.Windowed.redeliver (h : s.Windowed named) (c : ChanId) (f : ChanDelivery → ChanDelivery)
    {l : List (ChanId × BatchId)} (nodup : l.Nodup) (others : ∀ j, j ≠ c → ∀ b, (j, b) ∈ l ↔ (j, b) ∈ s.resend)
    (here : BatchView.Law { s.view named c with batches := f (s.deliv c), listed := fun b => (c, b) ∈ l }) :
    State.Windowed named { s.modDeliv c f with resend := l } := by
  have relisted (j : ChanId) : State.view { s.modDeliv c f with resend := l } named j =
      { (s.modDeliv c f).view named j with listed := fun b => (j, b) ∈ l } := rfl
  refine h.at c (fun j hj => ?_) nodup ?_
  · have same : (fun b => (j, b) ∈ l) = (s.view named j).listed := funext fun b => propext (others j hj b)
    rw [relisted, State.modDeliv_view_ne c j f hj, same]
  · rw [relisted, State.modDeliv_view_same]
    exact here

/-- The record of one channel changed. -/
theorem State.Windowed.modChan (h : s.Windowed named) (c : ChanId) (f : Channel → Channel)
    (here : BatchView.Law
      { s.view named c with state := (f (s.chan c)).state, config := (f (s.chan c)).config }) :
    (s.modChan c f).Windowed named :=
  h.at c (fun j hj => State.modChan_view_ne c j f hj) h.resend (by rw [State.modChan_view_same]; exact here)

/-- A record changed but for its state and its configuration. -/
theorem State.modChan_aside (s : State) (c : ChanId) (f : Channel → Channel)
    (h : ∀ ch, (f ch).state = ch.state ∧ (f ch).config = ch.config := by intro ch; exact ⟨rfl, rfl⟩) :
    s.Aside (s.modChan c f) where
  chan j := by
    rw [State.modChan_chan]
    split
    · next e => rw [e]; exact h _
    · exact ⟨rfl, rfl⟩

theorem State.raiseAll_aside (s : State) (ns : List Notice) : s.Aside (s.raiseAll ns) where

theorem State.modLink_aside (s : State) (f : Link → Link) : s.Aside (s.modLink f) where

end Sys2Proof.Machine
end

section
/-! PROOFS. The operations of the delivery unit and the outputs appended to a batch: each as one update (O35), and each
kept within the window law. -/

namespace Sys2Proof.Machine

variable {named : ChanId → Prop} {s : State} {c : ChanId} {b : BatchId}

/-! ## Reading and writing one slot -/

theorem ChanDelivery.slot_of_set {d d' : ChanDelivery} {b : BatchId} {t : BatchSlot}
    (h : d'.slots = d.slots.set b.val t) (a : BatchId) : d'.slot a = if a = b then t else d.slot a := by
  have : d'.slot a = (d.modSlot b fun _ => t).slot a := by
    simp [ChanDelivery.slot, ChanDelivery.modSlot, h]
  rw [this, ChanDelivery.modSlot_slot]

/-- One batch of a channel changed: what `BatchView.Changes` asks of one slot. -/
theorem BatchView.Law.one {v v' : BatchView} (h : v.Law) (b : BatchId) (t : BatchSlot)
    (slots : v'.batches.slots = v.batches.slots.set b.val t)
    (same : v'.state = v.state ∧ v'.config = v.config ∧ v'.named = v.named ∧
      v'.batches.drainWatch = v.batches.drainWatch)
    (inRun : v.state.inRun = true) (others : ∀ a, a ≠ b → v'.places a = v.places a)
    (placed : t.Placed v.config (v'.places b))
    (filling : t.state = .filling → v.batches.drainWatch = false ∧ ∀ a, a ≠ b → (v.batches.slot a).state ≠ .filling)
    (nodup : v'.batches.readyOrder.Nodup ∧ v'.batches.inflightOrder.Nodup)
    (window : v'.batches.inflightOrder.length ≤ v.config.window)
    (autoAck : v.config.autoAck = true → v'.batches.inflightOrder = []) : v'.Law := by
  have slot := ChanDelivery.slot_of_set slots
  refine h.change (bs := [b]) ⟨same.1, same.2.1, same.2.2.1, same.2.2.2, inRun, fun a ha => ?_, fun a ha => ?_,
    fun a ha hf => ?_, nodup, window, autoAck⟩
  · have hne : a ≠ b := by simpa using ha
    exact ⟨(slot a).trans (if_neg hne), others a hne⟩
  · obtain rfl := List.mem_singleton.1 ha
    rw [slot, if_pos rfl]
    exact placed
  · obtain rfl := List.mem_singleton.1 ha
    rw [slot, if_pos rfl] at hf
    refine ⟨(filling hf).1, fun x hx => ?_⟩
    rw [slot, if_neg hx]
    exact (filling hf).2 x hx

/-! ## Filling (R96 to R98) -/

/-- Slot `b` given the batch `t` with its new output: FILLING below N outputs, else READY with the next sequence number
and at the tail of the ready order. -/
def ChanDelivery.hold (d : ChanDelivery) (b : BatchId) (t : BatchSlot) (pendingLost : Half) (n : Nat) : ChanDelivery :=
  if t.outputs.length < n then { d with slots := d.slots.set b.val t, pendingLost := pendingLost }
  else
    { d with
      slots := d.slots.set b.val { t with
        state := .ready, sequence := d.seqCounter, flags := { t.flags with final := false } }
      pendingLost := pendingLost
      seqCounter := d.seqCounter + 1
      readyOrder := d.readyOrder ++ [b] }

/-- A batch with one more output, the flags of its channel combined into its own. -/
def BatchSlot.grow (t : BatchSlot) (v : Output) (f : Flags) : BatchSlot :=
  { t with outputs := t.outputs ++ [v], flags := t.flags.carry f }

/-- A batch about to take its first output. -/
def ChanDelivery.fresh (d : ChanDelivery) (session : Byte) (i : OutIndex) : BatchSlot :=
  { BatchSlot.free with state := .filling, firstIndex := i, session := session, lost := d.pendingLost }

theorem ChanDelivery.finishAppend_hold (d : ChanDelivery) (b : BatchId) (t : BatchSlot) (p : Half) (f : Flags) (n : Nat) :
    ChanDelivery.finishAppend { d.modSlot b (fun _ => t) with pendingLost := p } b f n =
      d.hold b { t with flags := t.flags.carry f } p n := by
  unfold ChanDelivery.finishAppend ChanDelivery.hold
  simp only [ChanDelivery.modSlot, ChanDelivery.slot, ChanDelivery.makeReady, Vector.set_set, Vector.getElem_set_self,
    ← not_lt, ite_not]

/-- What an output appended does once it has a slot. -/
theorem State.append_placed (s : State) (c : ChanId) (i : OutIndex) (v : Output) {b : BatchId} {t : BatchSlot} {p : Half}
    (h : (s.deliv c).place (s.chan c).session i v =
      some (b, { (s.deliv c).modSlot b (fun _ => t) with pendingLost := p })) :
    s.append c i v = ((s.modDeliv c fun d => d.hold b { t with flags := t.flags.carry (s.chan c).flags } p
      (s.chan c).config.batchSize).modChan c fun ch => { ch with flags := .none }, []) := by
  unfold State.append
  dsimp only
  rw [h]
  dsimp only
  rw [ChanDelivery.finishAppend_hold]
  rfl

/-- An output joins the FILLING batch. -/
theorem State.append_filling (s : State) (c : ChanId) (i : OutIndex) (v : Output) {b : BatchId}
    (hb : (s.deliv c).lowest .filling = some b) :
    s.append c i v = ((s.modDeliv c fun d => d.hold b ((d.slot b).grow v (s.chan c).flags) d.pendingLost
      (s.chan c).config.batchSize).modChan c fun ch => { ch with flags := .none }, []) := by
  refine s.append_placed c i v (t := { (s.deliv c).slot b with outputs := ((s.deliv c).slot b).outputs ++ [v] }) ?_
  unfold ChanDelivery.place
  rw [hb]
  rfl

/-- With no FILLING batch an output opens the lowest FREE slot. -/
theorem State.append_opens (s : State) (c : ChanId) (i : OutIndex) (v : Output) {b : BatchId}
    (hf : (s.deliv c).lowest .filling = none) (hb : (s.deliv c).lowest .free = some b) :
    s.append c i v = ((s.modDeliv c fun d => d.hold b ((d.fresh (s.chan c).session i).grow v (s.chan c).flags) 0
      (s.chan c).config.batchSize).modChan c fun ch => { ch with flags := .none }, []) := by
  refine s.append_placed c i v (t := { (s.deliv c).fresh (s.chan c).session i with outputs := [v] }) ?_
  unfold ChanDelivery.place
  rw [hf]
  dsimp only
  rw [hb]
  rfl

/-- With neither the output is lost. -/
theorem State.append_loses (s : State) (c : ChanId) (i : OutIndex) (v : Output)
    (hf : (s.deliv c).lowest .filling = none) (hb : (s.deliv c).lowest .free = none) :
    s.append c i v = s.loseOutput c := by
  have place : (s.deliv c).place (s.chan c).session i v = none := by
    unfold ChanDelivery.place
    rw [hf]
    dsimp only
    rw [hb]
  unfold State.append
  dsimp only
  rw [place]

/-- Settles O35: the batch that takes the output is the lowest FILLING one, else the lowest FREE one. -/
theorem appendFillsABatchOrLosesTheOutput : Obligations.AppendFillsABatchOrLosesTheOutput := by
  intro s c i v ch d carried fresh result took
  refine ⟨fun b hb hl => ?_, fun b hf hb hl => ?_, fun h => ?_⟩
  · rw [s.append_filling c i v (ChanDelivery.lowest_eq_some.2 ⟨hb, hl⟩)]
    rfl
  · rw [s.append_opens c i v (ChanDelivery.lowest_eq_none.2 hf) (ChanDelivery.lowest_eq_some.2 ⟨hb, hl⟩)]
    rfl
  · rw [s.append_loses c i v (ChanDelivery.lowest_eq_none.2 fun x => (h x).1)
      (ChanDelivery.lowest_eq_none.2 fun x => (h x).2)]
    have lost : (if d.pendingLost = 65535 then 0 else d.pendingLost) + 1 =
        if d.pendingLost = 65535 then 1 else d.pendingLost + 1 := by
      split <;> rfl
    rw [← lost]
    rfl

/-- A batch of a channel in a run takes an output, while no drain is watched and no other batch is FILLING. -/
theorem BatchView.Law.hold {v : BatchView} (h : v.Law) {b : BatchId} {t : BatchSlot} (p : Half)
    (inRun : v.state.inRun = true) (undrained : v.batches.drainWatch = false)
    (others : ∀ a, a ≠ b → (v.batches.slot a).state ≠ .filling) (state : t.state = .filling)
    (unsent : t.beingSent = false) (size : 1 ≤ t.outputs.length ∧ t.outputs.length ≤ v.config.batchSize)
    (nowhere : ¬ (v.places b).ready ∧ ¬ (v.places b).inflight ∧ ¬ (v.places b).listed) :
    BatchView.Law { v with batches := v.batches.hold b t p v.config.batchSize } := by
  unfold ChanDelivery.hold
  split
  · next hn =>
    exact h.one b t rfl ⟨rfl, rfl, rfl, rfl⟩ inRun (fun _ _ => rfl) (.filling state unsent nowhere ⟨size.1, hn⟩)
      (fun _ => ⟨undrained, others⟩) h.nodup h.window h.autoAck
  · next hn =>
    refine h.one b _ rfl ⟨rfl, rfl, rfl, rfl⟩ inRun (fun a ha => ?_) (.queued rfl unsent ?_ ?_) nofun ⟨?_, h.nodup.2⟩
      h.window h.autoAck
    · simp [BatchView.places, ha]
    · exact ⟨by simp [BatchView.places], nowhere.2⟩
    · exact ⟨size.1, size.2, fun hlt => absurd hlt hn⟩
    · exact List.nodup_append.2 ⟨h.nodup.1, List.nodup_singleton b,
        fun x hx y hy e => nowhere.1 (List.mem_singleton.1 hy ▸ e ▸ hx)⟩

theorem State.Windowed.append (h : s.Windowed named) (c : ChanId) (i : OutIndex) (v : Output)
    (inRun : (s.chan c).state.inRun = true) (undrained : (s.deliv c).drainWatch = false) :
    (s.append c i v).1.Windowed named := by
  have law := h.law c
  have cleared (t : State) := State.modChan_aside t c fun ch => { ch with flags := .none }
  cases hf : (s.deliv c).lowest .filling with
  | some b =>
    rw [s.append_filling c i v hf]
    obtain ⟨hb, -⟩ := ChanDelivery.lowest_eq_some.1 hf
    obtain ⟨unsent, nowhere, size⟩ := (law.placed b).filling_of_state hb
    have grown : 1 ≤ (((s.deliv c).slot b).grow v (s.chan c).flags).outputs.length ∧
        (((s.deliv c).slot b).grow v (s.chan c).flags).outputs.length ≤ (s.chan c).config.batchSize := by
      simp only [BatchSlot.grow, List.length_append, List.length_singleton]
      exact ⟨Nat.le_add_left _ _, size.2⟩
    exact State.Windowed.aside (h.modDeliv c _ (law.hold (t := ((s.deliv c).slot b).grow v (s.chan c).flags) _ inRun
      undrained (fun a ha hfa => ha (law.filling a b hfa hb)) hb unsent grown nowhere)) (cleared _)
  | none =>
    cases hb : (s.deliv c).lowest .free with
    | some b =>
      rw [s.append_opens c i v hf hb]
      obtain ⟨hb, -⟩ := ChanDelivery.lowest_eq_some.1 hb
      exact State.Windowed.aside (h.modDeliv c _ (law.hold
        (t := ((s.deliv c).fresh (s.chan c).session i).grow v (s.chan c).flags) _ inRun undrained
        (fun a _ => ChanDelivery.lowest_eq_none.1 hf a) rfl rfl ⟨le_rfl, law.ranges.1⟩
        ((law.placed b).free_of_state hb).2)) (cleared _)
    | none =>
      rw [s.append_loses c i v hf hb]
      unfold State.loseOutput
      dsimp only
      exact State.Windowed.aside (h.modDeliv c _ (law.recount rfl rfl rfl rfl)) (State.modChan_aside _ c _)

/-! ## The drain and the close (R14, R15, R99, R110) -/

/-- A complete drain leaves no batch. -/
theorem BatchView.Law.free_of_drained {v : BatchView} (h : v.Law) (hw : v.batches.drainWatch = true)
    (hd : v.batches.drained = true) (b : BatchId) : (v.batches.slot b).state = .free := by
  have hf := (h.drain hw).2.1 b
  have := ChanDelivery.drained_iff.1 hd b
  cases hs : (v.batches.slot b).state <;> simp_all

theorem State.Windowed.drainReport (h : s.Windowed named) (hf : ∀ b, ((s.deliv c).slot b).state = .free)
    (hw : (s.deliv c).drainWatch = false) : (s.drainReport c).1.Windowed named := by
  have law := h.law c
  have ready : BatchView.Law { s.view named c with state := .ready } :=
    (law.vacant (v' := { s.view named c with state := .ready }) hf (fun _ => rfl) ⟨rfl, rfl⟩ hw rfl).law law.ranges
  unfold State.drainReport
  split
  · exact h.modChan c (fun ch => { ch with
      state := .ready, stopCause := none, opSlot := ch.opSlot.finishOp .stop .ok }) ready
  · exact h.modChan c (fun ch => { ch with state := .ready, stopCause := none }) ready
  · exact h

theorem State.Windowed.checkDrain (h : s.Windowed named) (c : ChanId) : (s.checkDrain c).1.Windowed named := by
  unfold State.checkDrain
  split
  · next hd =>
    rw [Bool.and_eq_true] at hd
    have law := h.law c
    have free := law.free_of_drained hd.1 hd.2
    have vacant := law.vacant (v' := { s.view named c with batches := { s.deliv c with drainWatch := false } }) free
      (fun _ => rfl) ⟨rfl, rfl⟩ rfl rfl
    refine (h.modDeliv c (fun d => { d with drainWatch := false }) (vacant.law law.ranges)).drainReport (fun b => ?_)
      (by simp)
    rw [State.modDeliv_deliv_same]
    exact free b
  · exact h

/-- A FILLING batch becomes READY with FINAL. -/
theorem BatchView.Law.makeReady {v : BatchView} (h : v.Law) {b : BatchId} (hb : (v.batches.slot b).state = .filling) :
    BatchView.Law { v with batches := v.batches.makeReady b true } := by
  obtain ⟨unsent, nowhere, size⟩ := (h.placed b).filling_of_state hb
  refine h.one b _ rfl ⟨rfl, rfl, rfl, rfl⟩ (h.inRun (by rw [hb]; decide)) (fun a ha => ?_) (.queued rfl unsent ?_ ?_)
    nofun ⟨?_, h.nodup.2⟩ h.window h.autoAck
  · simp [BatchView.places, ChanDelivery.makeReady, ha]
  · exact ⟨by simp [BatchView.places, ChanDelivery.makeReady], nowhere.2⟩
  · exact ⟨size.1, size.2.le, fun _ => rfl⟩
  · exact List.nodup_append.2 ⟨h.nodup.1, List.nodup_singleton b,
      fun x hx y hy e => nowhere.1 (List.mem_singleton.1 hy ▸ e ▸ hx)⟩

/-- The close leaves no FILLING batch. -/
theorem State.Windowed.closeFilling (h : s.Windowed named) (c : ChanId) : (s.closeFilling c).1.Windowed named ∧
    (∀ b, (((s.closeFilling c).1.deliv c).slot b).state ≠ .filling) ∧
    (s.closeFilling c).1.chan c = s.chan c := by
  have law := h.law c
  unfold State.closeFilling
  dsimp only
  split
  · next b hb =>
    obtain ⟨hb, -⟩ := ChanDelivery.lowest_eq_some.1 hb
    refine ⟨h.modDeliv c (fun d => d.makeReady b true) (law.makeReady hb), fun a ha => ?_, rfl⟩
    rw [State.modDeliv_deliv_same, ChanDelivery.slot_of_set (d := s.deliv c) (b := b) rfl] at ha
    split at ha
    · exact nomatch ha
    · next hne => exact hne (law.filling a b ha hb)
  · next hb =>
    split
    · exact ⟨h, ChanDelivery.lowest_eq_none.1 hb, rfl⟩
    · refine ⟨h.modDeliv c (fun d => { d with pendingLost := 0 }) (law.recount rfl rfl rfl rfl), fun a => ?_, rfl⟩
      rw [State.modDeliv_deliv_same]
      exact ChanDelivery.lowest_eq_none.1 hb a

/-- The close of a STOPPING channel without an entry left to settle. -/
theorem State.Windowed.closeBatch (h : s.Windowed named) (hs : (s.chan c).state = .stopping) (hn : ¬ named c) :
    (s.closeBatch c).1.Windowed named := by
  unfold State.closeBatch
  split
  · exact h
  · obtain ⟨closed, unfilled, chan⟩ := h.closeFilling c
    refine State.Windowed.checkDrain (closed.modDeliv c _ ?_) c
    obtain ⟨placed, filling, nodup, window, autoAck, ranges, empty, -⟩ := closed.law c
    exact ⟨placed, filling, nodup, window, autoAck, ranges, empty,
      fun _ => ⟨(congrArg Channel.state chan).trans hs, unfilled, hn⟩⟩

theorem State.Windowed.closeIfStopping (h : s.Windowed named) (hn : ¬ named c) :
    (s.closeIfStopping c).1.Windowed named := by
  unfold State.closeIfStopping
  split
  · next hs => exact h.closeBatch hs hn
  · exact h

/-! ## Batches freed (R102, R104, R108, R111) -/

theorem BatchSlot.free_placed {g : ChanConfig} {p : Places} (h : ¬ p.ready ∧ ¬ p.inflight ∧ ¬ p.listed) :
    BatchSlot.free.Placed g p := .free rfl rfl h

theorem ChanDelivery.freeSlots_slot (d : ChanDelivery) (bs : List BatchId) (a : BatchId) :
    (d.freeSlots bs).slot a = if a ∈ bs then .free else d.slot a := by
  unfold ChanDelivery.freeSlots
  induction bs generalizing d with
  | nil => simp
  | cons b bs ih =>
    rw [List.foldl_cons, ih, ChanDelivery.modSlot_slot]
    by_cases ha : a ∈ bs <;> by_cases hb : a = b <;> simp [ha, hb]

theorem ChanDelivery.freeSlots_rest (d : ChanDelivery) (bs : List BatchId) :
    (d.freeSlots bs).seqCounter = d.seqCounter ∧ (d.freeSlots bs).pendingLost = d.pendingLost ∧
      (d.freeSlots bs).readyOrder = d.readyOrder ∧ (d.freeSlots bs).drainWatch = d.drainWatch := by
  unfold ChanDelivery.freeSlots
  induction bs generalizing d with
  | nil => exact ⟨rfl, rfl, rfl, rfl⟩
  | cons b bs ih => exact ih _

/-- The INFLIGHT batches that head the in-flight order freed. -/
theorem BatchView.Law.free_first {v : BatchView} (h : v.Law) (n : Nat)
    (hf : v.batches.inflightOrder.take n ≠ []) (l : BatchId → Prop)
    (hl : ∀ b, l b ↔ v.listed b ∧ b ∉ v.batches.inflightOrder.take n) :
    BatchView.Law { v with
      batches := { v.batches.freeSlots (v.batches.inflightOrder.take n) with
        inflightOrder := v.batches.inflightOrder.drop n }
      listed := l } := by
  obtain ⟨-, -, ready, watch⟩ := v.batches.freeSlots_rest (v.batches.inflightOrder.take n)
  have slot := v.batches.freeSlots_slot (v.batches.inflightOrder.take n)
  generalize v.batches.freeSlots (v.batches.inflightOrder.take n) = d at *
  have split : v.batches.inflightOrder.take n ++ v.batches.inflightOrder.drop n = v.batches.inflightOrder :=
    List.take_append_drop n _
  generalize v.batches.inflightOrder.take n = freed at *
  generalize v.batches.inflightOrder.drop n = rest at *
  have mem (a : BatchId) : a ∈ v.batches.inflightOrder ↔ a ∈ freed ∨ a ∈ rest := by rw [← split, List.mem_append]
  have nodup := h.nodup.2
  rw [← split, List.nodup_append] at nodup
  obtain ⟨-, restNodup, apart⟩ := nodup
  have unready (a : BatchId) (ha : a ∈ freed) : a ∉ v.batches.readyOrder := fun hr =>
    ((h.placed a).queued_of_ready hr).2.2.1 ((mem a).2 (.inl ha))
  obtain ⟨x, hx⟩ := List.exists_mem_of_ne_nil freed hf
  have inRun : v.state.inRun = true := h.inRun (b := x) fun hst =>
    ((h.placed x).free_of_state hst).2.2.1 ((mem x).2 (.inl hx))
  refine h.change (bs := freed) ⟨rfl, rfl, rfl, watch, inRun, fun a ha => ⟨?_, ?_⟩, fun a ha => ?_, fun a ha hst => ?_,
    ⟨by rw [show _ = _ from ready]; exact h.nodup.1, restNodup⟩, ?_, fun haa => ?_⟩
  · exact (slot a).trans (if_neg ha)
  · simp [BatchView.places, ready, mem, hl, ha]
  · show (d.slot a).Placed _ _
    rw [slot, if_pos ha]
    refine BatchSlot.free_placed ?_
    simp [BatchView.places, ready, hl, ha, unready a ha]
    exact fun hr => apart a ha a hr rfl
  · change (d.slot a).state = _ at hst
    rw [slot, if_pos ha] at hst
    exact nomatch hst
  · have := h.window
    rw [← split, List.length_append] at this
    exact le_trans (Nat.le_add_left _ _) this
  · have := h.autoAck haa
    rw [← split] at this
    exact (List.append_eq_nil_iff.1 this).2

/-- The sequence looked for is in the in-flight order. -/
theorem ChanDelivery.inflightOrder_ne_nil {d : ChanDelivery} {q : Byte} {i : Nat} (h : d.inflightWith q = some i) :
    d.inflightOrder ≠ [] := by
  rintro e
  simp [ChanDelivery.inflightWith, e] at h

theorem State.Windowed.acknowledge (h : s.Windowed named) (c : ChanId) (q : Byte) :
    (s.acknowledge c q).1.Windowed named := by
  unfold State.acknowledge
  split
  · exact h
  · next i hi =>
    have nonempty : (s.deliv c).inflightOrder.take (i + 1) ≠ [] := by
      simpa using ChanDelivery.inflightOrder_ne_nil hi
    have listed (j : ChanId) (b : BatchId) : (j, b) ∈ s.resend.filter
        (fun e => !(e.1 == c && ((s.deliv c).inflightOrder.take (i + 1)).contains e.2)) ↔
        (j, b) ∈ s.resend ∧ (j = c → b ∉ (s.deliv c).inflightOrder.take (i + 1)) := by
      simp [imp_iff_not_or]
    exact State.Windowed.checkDrain (h.redeliver c _ (h.resend.filter _)
      (fun j hj b => (listed j b).trans (by simp [hj]))
      ((h.law c).free_first (i + 1) nonempty _ fun b => (listed c b).trans (by simp [State.view]))) c

/-- An INFLIGHT batch that waits on its ack timer, dropped. -/
theorem BatchView.Law.drop {v : BatchView} (h : v.Law) {b : BatchId} (hb : (v.batches.slot b).state = .inflight)
    (ht : (v.batches.slot b).timer ≠ .stopped) :
    BatchView.Law { v with batches := { v.batches.modSlot b (fun _ => .free) with
      inflightOrder := v.batches.inflightOrder.filter (· != b) } } := by
  have unlisted : ¬ (v.places b).ready ∧ ¬ (v.places b).listed := by
    cases h.placed b <;> simp_all
  refine h.one b .free rfl ⟨rfl, rfl, rfl, rfl⟩ (h.inRun (by rw [hb]; decide)) (fun a ha => ?_)
    (BatchSlot.free_placed ⟨unlisted.1, ?_, unlisted.2⟩) nofun ⟨h.nodup.1, h.nodup.2.filter _⟩
    ((List.length_filter_le _ _).trans h.window) (fun ha => by rw [h.autoAck ha]; rfl)
  · simp [BatchView.places, ha]
  · simp [BatchView.places]

theorem ChanDelivery.timed_iff {d : ChanDelivery} {b : BatchId} :
    d.timed b = true ↔ (d.slot b).state = .inflight ∧ (d.slot b).timer ≠ .stopped := by
  simp [ChanDelivery.timed]

theorem State.Windowed.dropBatch (h : s.Windowed named) (ht : (s.deliv c).timed b = true) :
    (s.dropBatch c b).1.Windowed named := by
  obtain ⟨hb, ht⟩ := ChanDelivery.timed_iff.1 ht
  unfold State.dropBatch Raising.andThen
  dsimp only
  exact State.Windowed.checkDrain (State.Windowed.aside (h.modDeliv c _ ((h.law c).drop hb ht))
    (State.modChan_aside _ c _)) c

/-! ## Batches to be sent again (R106) -/

/-- A batch that waits on its ack timer, listed to be sent again. -/
theorem BatchView.Law.relist {v : BatchView} (h : v.Law) {b : BatchId} (hb : (v.batches.slot b).state = .inflight)
    (ht : (v.batches.slot b).timer ≠ .stopped) (l : BatchId → Prop) (hl : ∀ a, l a ↔ v.listed a ∨ a = b) :
    BatchView.Law { v with
      batches := v.batches.modSlot b fun t => { t with retry := t.retry + 1, timer := .stopped }, listed := l } := by
  have place : (v.batches.slot b).beingSent = false ∧ ¬ (v.places b).ready ∧ (v.places b).inflight ∧
      (v.batches.slot b).Whole v.config := by
    cases h.placed b <;> simp_all
  obtain ⟨unsent, unready, inflight, whole⟩ := place
  refine h.one b _ rfl ⟨rfl, rfl, rfl, rfl⟩ (h.inRun (by rw [hb]; decide)) (fun a ha => ?_)
    (.listed hb unsent rfl ⟨unready, inflight, (hl b).2 (.inr rfl)⟩ ⟨whole.pos, whole.le, whole.final⟩)
    (fun hf => absurd (hb.symm.trans hf) nofun) h.nodup h.window h.autoAck
  simp [BatchView.places, hl, ha]

/-- A batch listed to be sent again is listed once. -/
theorem State.Windowed.relist (h : s.Windowed named) (ht : (s.deliv c).timed b = true) :
    State.Windowed named { s.modDeliv c fun d =>
        d.modSlot b fun t => { t with retry := t.retry + 1, timer := .stopped } with
      resend := s.resend ++ [(c, b)] } := by
  obtain ⟨hb, ht⟩ := ChanDelivery.timed_iff.1 ht
  have unlisted : (c, b) ∉ s.resend := fun hl => ht (((h.law c).placed b).listed_of_listed hl).2.2.1
  refine h.redeliver c _ ?_ (fun j hj a => ?_) ((h.law c).relist hb ht _ fun a => ?_)
  · exact List.nodup_append.2 ⟨h.resend, List.nodup_singleton _,
      fun x hx y hy e => unlisted (List.mem_singleton.1 hy ▸ e ▸ hx)⟩
  · simp [hj]
  · simp [State.view]

/-! ## Ends of transmissions (R102, R103, R112) -/

/-- The line freed, where nothing is being sent any more. -/
theorem State.Windowed.freeTransmitter (h : s.Windowed named)
    (hu : ∀ j a, ((s.deliv j).slot a).beingSent = false) : s.freeTransmitter.Windowed named := by
  refine ⟨fun j => ?_, h.resend⟩
  obtain ⟨placed, filling, nodup, window, autoAck, ranges, empty, drain⟩ := h.law j
  refine ⟨fun a => (placed a).move_line fun hs => ?_, filling, nodup, window, autoAck, ranges, empty, drain⟩
  exact absurd (hu j a) (by rw [show ((s.deliv j).slot a).beingSent = true from hs]; decide)

/-- What is being sent is what the transmission in progress was built from. -/
theorem State.Windowed.sent_onLine (h : s.Windowed named) {j : ChanId} {a : BatchId}
    (hs : ((s.deliv j).slot a).beingSent = true) : s.onLine j a := ((h.law j).placed a).onLine_of_sent hs

/-- The ack timer of a batch treated as sent. -/
theorem BatchView.Law.startTimer {v : BatchView} (h : v.Law) {b : BatchId} (hb : (v.batches.slot b).state = .inflight)
    (hs : (v.batches.slot b).beingSent = true) (n : Nat) :
    BatchView.Law { v with batches := v.batches.modSlot b fun t => { t with beingSent := false, timer := .running n } } := by
  have place : (¬ (v.places b).ready ∧ (v.places b).inflight ∧ ¬ (v.places b).listed) ∧
      (v.batches.slot b).Whole v.config := by
    cases h.placed b <;> simp_all
  obtain ⟨here, whole⟩ := place
  exact h.one b _ rfl ⟨rfl, rfl, rfl, rfl⟩ (h.inRun (by rw [hb]; decide)) (fun _ _ => rfl)
    (.waiting hb rfl nofun here ⟨whole.pos, whole.le, whole.final⟩)
    (fun hf => absurd (hb.symm.trans hf) nofun) h.nodup h.window h.autoAck

/-- A READY batch that is being sent is in neither order and not listed. -/
theorem BatchView.Law.leaving {v : BatchView} (h : v.Law) {b : BatchId} (hb : (v.batches.slot b).state = .ready)
    (hs : (v.batches.slot b).beingSent = true) :
    (¬ (v.places b).ready ∧ ¬ (v.places b).inflight ∧ ¬ (v.places b).listed) ∧ (v.batches.slot b).Whole v.config := by
  cases h.placed b <;> simp_all

/-- In auto-acknowledge mode a batch is freed with its send completion. -/
theorem BatchView.Law.sent {v : BatchView} (h : v.Law) {b : BatchId} (hb : (v.batches.slot b).state = .ready)
    (hs : (v.batches.slot b).beingSent = true) :
    BatchView.Law { v with batches := v.batches.modSlot b fun _ => .free } :=
  h.one b _ rfl ⟨rfl, rfl, rfl, rfl⟩ (h.inRun (by rw [hb]; decide)) (fun _ _ => rfl)
    (BatchSlot.free_placed (h.leaving hb hs).1) nofun h.nodup h.window h.autoAck

/-- An abandoned READY batch heads the ready order again. -/
theorem BatchView.Law.requeue {v : BatchView} (h : v.Law) {b : BatchId} (hb : (v.batches.slot b).state = .ready)
    (hs : (v.batches.slot b).beingSent = true) :
    BatchView.Law { v with batches := { v.batches.modSlot b (fun t => { t with beingSent := false }) with
      readyOrder := b :: v.batches.readyOrder } } := by
  obtain ⟨nowhere, whole⟩ := h.leaving hb hs
  refine h.one b _ rfl ⟨rfl, rfl, rfl, rfl⟩ (h.inRun (by rw [hb]; decide)) (fun a ha => ?_)
    (.queued hb rfl ⟨?_, nowhere.2⟩ ⟨whole.pos, whole.le, whole.final⟩)
    (fun hf => absurd (hb.symm.trans hf) nofun) ⟨List.nodup_cons.2 ⟨nowhere.1, h.nodup.1⟩, h.nodup.2⟩ h.window h.autoAck
  · simp [BatchView.places, ha]
  · simp [BatchView.places]

/-- What is being sent once the batch on the line is not: nothing. -/
theorem State.Windowed.unsent {u : State} {tr : Transmission} (h : s.Windowed named)
    (hl : s.arbiter.transmission = some tr) (hsrc : tr.source = .batch c b ∨ tr.source = .resend c b)
    (hb : ((u.deliv c).slot b).beingSent = false)
    (others : ∀ j a, ¬ (j = c ∧ a = b) → (u.deliv j).slot a = (s.deliv j).slot a) (j : ChanId) (a : BatchId) :
    ((u.deliv j).slot a).beingSent = false := by
  by_cases hja : j = c ∧ a = b
  · rw [hja.1, hja.2]; exact hb
  · rw [others j a hja, ← Bool.not_eq_true]
    intro hs
    obtain ⟨t, ht, hj⟩ := h.sent_onLine hs
    obtain rfl := Option.some.inj (hl.symm.trans ht)
    rcases hsrc with hsrc | hsrc <;> rcases hj with hj | hj <;> rw [hsrc] at hj <;> simp at hj
    all_goals exact hja ⟨hj.1.symm, hj.2.symm⟩

theorem State.modDeliv_slot_others {u : State} {f : ChanDelivery → ChanDelivery}
    (hf : ∀ a, a ≠ b → (f (u.deliv c)).slot a = (u.deliv c).slot a) (j : ChanId) (a : BatchId)
    (h : ¬ (j = c ∧ a = b)) : ((u.modDeliv c f).deliv j).slot a = (u.deliv j).slot a := by
  rw [State.modDeliv_deliv]
  split
  · next hj => rw [hj]; exact hf a fun ha => h ⟨hj, ha⟩
  · rfl

/-- The transmission of a batch ends and the line is free, with the batch changed so that it is not being sent. -/
theorem State.Windowed.lineEnds {tr : Transmission} (h : s.Windowed named) (hl : s.arbiter.transmission = some tr)
    (hsrc : tr.source = .batch c b ∨ tr.source = .resend c b) (f : ChanDelivery → ChanDelivery)
    (here : BatchView.Law { s.view named c with batches := f (s.deliv c) }) {t : BatchSlot}
    (slots : (f (s.deliv c)).slots = (s.deliv c).slots.set b.val t) (ht : t.beingSent = false) :
    (s.freeTransmitter.modDeliv c f).Windowed named := by
  have slot := ChanDelivery.slot_of_set slots
  refine State.Windowed.freeTransmitter (s := s.modDeliv c f) (h.modDeliv c f here)
    (h.unsent hl hsrc ?_ (State.modDeliv_slot_others fun a ha => (slot a).trans (if_neg ha)))
  rw [State.modDeliv_deliv_same, slot, if_pos rfl]
  exact ht

/-- With nothing of the batch being sent the line is free. -/
theorem State.Windowed.lineGone {tr : Transmission} (h : s.Windowed named) (hl : s.arbiter.transmission = some tr)
    (hsrc : tr.source = .batch c b ∨ tr.source = .resend c b) (hb : ¬ ((s.deliv c).slot b).beingSent = true) :
    s.freeTransmitter.Windowed named :=
  h.freeTransmitter (h.unsent (u := s) hl hsrc (by simpa using hb) fun _ _ _ => rfl)

theorem State.Windowed.timerStarts {tr : Transmission} (h : s.Windowed named) (hl : s.arbiter.transmission = some tr)
    (hsrc : tr.source = .batch c b ∨ tr.source = .resend c b) (hs : ((s.deliv c).slot b).beingSent = true)
    (hb : ((s.deliv c).slot b).state = .inflight) : (s.freeTransmitter.startTimer c b).Windowed named :=
  h.lineEnds hl hsrc
    (fun d => d.modSlot b fun t => { t with beingSent := false, timer := .running (s.chan c).config.ackTimeout })
    ((h.law c).startTimer hb hs _) rfl rfl

theorem State.Windowed.batchSent {tr : Transmission} (h : s.Windowed named) (hl : s.arbiter.transmission = some tr)
    (hsrc : tr.source = .batch c b ∨ tr.source = .resend c b) :
    (s.freeTransmitter.batchSent c b).1.Windowed named := by
  have law := h.law c
  unfold State.batchSent
  dsimp only
  split
  · next hs =>
    split
    · next hb => exact h.timerStarts hl hsrc hs hb
    · next hb =>
      exact State.Windowed.checkDrain (h.lineEnds hl hsrc (fun d => d.modSlot b fun _ => .free) (law.sent hb hs) rfl rfl) c
    · next hb => exact nomatch ((law.placed b).free_of_state hb).1.symm.trans hs
    · next hb => exact nomatch ((law.placed b).filling_of_state hb).1.symm.trans hs
  · next hs => exact h.lineGone hl hsrc hs

theorem State.Windowed.batchAbandoned {tr : Transmission} (h : s.Windowed named) (hl : s.arbiter.transmission = some tr)
    (hsrc : tr.source = .batch c b ∨ tr.source = .resend c b) :
    (s.freeTransmitter.batchAbandoned c b).Windowed named := by
  have law := h.law c
  unfold State.batchAbandoned
  dsimp only
  split
  · next hs =>
    split
    · next hb => exact h.timerStarts hl hsrc hs hb
    · next hb =>
      exact h.lineEnds hl hsrc (fun d => { d.modSlot b (fun t => { t with beingSent := false }) with
        readyOrder := b :: d.readyOrder }) (law.requeue hb hs) rfl rfl
    · next hb => exact nomatch ((law.placed b).free_of_state hb).1.symm.trans hs
    · next hb => exact nomatch ((law.placed b).filling_of_state hb).1.symm.trans hs
  · next hs => exact h.lineGone hl hsrc hs

/-! ## Transmissions started (R101, R107, R117) -/

/-- A transmission started where the line was free. -/
theorem State.Windowed.transmit (h : s.Windowed named) (hl : s.arbiter.transmission = none) (src : Source) (f : Frame) :
    (s.transmit src f).Windowed named := by
  refine ⟨fun j => ?_, h.resend⟩
  obtain ⟨placed, filling, nodup, window, autoAck, ranges, empty, drain⟩ := h.law j
  refine ⟨fun a => (placed a).move_line fun hs => ?_, filling, nodup, window, autoAck, ranges, empty, drain⟩
  obtain ⟨t, ht, -⟩ := h.sent_onLine hs
  exact nomatch hl.symm.trans ht

/-- A batch listed first, sent again. -/
theorem BatchView.Law.resend {v : BatchView} (h : v.Law) {b : BatchId} (hb : v.listed b) (ho : v.onLine b)
    (l : BatchId → Prop) (hl : ∀ a, l a ↔ v.listed a ∧ a ≠ b) :
    BatchView.Law { v with batches := v.batches.modSlot b fun t => { t with beingSent := true }, listed := l } := by
  obtain ⟨state, -, timer, unready, inflight, whole⟩ := (h.placed b).listed_of_listed hb
  refine h.one b _ rfl ⟨rfl, rfl, rfl, rfl⟩ (h.inRun (by rw [state]; decide)) (fun a ha => ?_)
    (.sending state rfl timer ⟨unready, inflight, fun hx => ((hl b).1 hx).2 rfl⟩ ho ⟨whole.pos, whole.le, whole.final⟩)
    (fun hf => absurd (state.symm.trans hf) nofun) h.nodup h.window h.autoAck
  simp [BatchView.places, hl, ha]

theorem State.Windowed.startResend {rest : List (ChanId × BatchId)} (h : s.Windowed named)
    (hl : s.arbiter.transmission = none) (hr : s.resend = (c, b) :: rest) : (s.startResend c b).Windowed named := by
  have sent := h.transmit hl (.resend c b) (((s.deliv c).slot b).frame c true)
  have nodup := h.resend
  rw [hr, List.nodup_cons] at nodup
  have law := (sent.law c).resend (b := b) (show (c, b) ∈ s.resend by rw [hr]; exact List.mem_cons_self)
    ⟨_, rfl, .inr rfl⟩ (fun a => (c, a) ∈ s.resend.tail)
    fun a => by
      show _ ↔ (c, a) ∈ s.resend ∧ _
      rw [hr]
      refine ⟨fun ha => ⟨List.mem_cons_of_mem _ ha, ?_⟩, fun ⟨ha, hne⟩ => ?_⟩
      · rintro rfl; exact nodup.1 ha
      · exact (List.mem_cons.1 ha).resolve_left fun e => hne (Prod.mk.inj e).2
  refine State.Windowed.aside (sent.redeliver c (fun d => d.modSlot b fun t => { t with beingSent := true })
    (l := s.resend.tail) (hr ▸ nodup.2) (fun j hj a => ?_) law) (State.modChan_aside _ c fun ch =>
      { ch with counters := { ch.counters with retransmissions := inc16 ch.counters.retransmissions } })
  show _ ↔ (j, a) ∈ s.resend
  simp [hr, hj]

/-- The batch at the head of the ready order sent, with room in the window. -/
theorem BatchView.Law.send {v : BatchView} (h : v.Law) {b : BatchId} {rest : List BatchId}
    (hr : v.batches.readyOrder = b :: rest) (ho : v.onLine b)
    (room : v.config.autoAck = false → v.batches.inflightOrder.length < v.config.window) :
    BatchView.Law { v with batches := v.batches.send b v.config.autoAck } := by
  obtain ⟨state, -, ninflight, unlisted, whole⟩ := (h.placed b).queued_of_ready
    (show b ∈ v.batches.readyOrder by rw [hr]; exact List.mem_cons_self)
  have nodup := h.nodup.1
  rw [hr, List.nodup_cons] at nodup
  have inRun := h.inRun (b := b) (by rw [state]; decide)
  have tail : v.batches.readyOrder.tail = rest := by rw [hr]; rfl
  unfold ChanDelivery.send
  dsimp only
  rw [tail]
  cases ha : v.config.autoAck with
  | true =>
    refine h.one b { v.batches.slot b with beingSent := true } rfl ⟨rfl, rfl, rfl, rfl⟩ inRun (fun a hab => ?_)
      (.leaving state rfl ⟨nodup.1, ninflight, unlisted⟩ ho ⟨whole.pos, whole.le, whole.final⟩)
      (fun hf => absurd (state.symm.trans hf) nofun) ⟨nodup.2, h.nodup.2⟩ h.window (fun _ => h.autoAck ha)
    simp [BatchView.places, hr, hab]
  | false =>
    refine h.one b { v.batches.slot b with beingSent := true, state := .inflight, retry := 0, timer := .stopped } rfl
      ⟨rfl, rfl, rfl, rfl⟩ inRun (fun a hab => ?_)
      (.sending rfl rfl rfl ⟨nodup.1, ?_, unlisted⟩ ho ⟨whole.pos, whole.le, whole.final⟩)
      nofun ⟨nodup.2, ?_⟩ ?_ (fun h' => nomatch ha.symm.trans h')
    · simp [BatchView.places, hr, hab]
    · simp [BatchView.places]
    · exact List.nodup_append.2 ⟨h.nodup.2, List.nodup_singleton b,
        fun x hx y hy e => ninflight (List.mem_singleton.1 hy ▸ e ▸ hx)⟩
    · simpa using room ha

end Sys2Proof.Machine
end

section
/-! PROOFS. The window law through the transmit arbiter, the channel controller, the sum engine and the resets. -/

namespace Sys2Proof.Machine

variable {named : ChanId → Prop} {s : State} {c : ChanId} {b : BatchId}

/-! ## The choice of the arbiter (R100, R117, R124) -/

theorem State.newBatch_eq_some (h : s.newBatch = some (c, b)) :
    s.eligible c = true ∧ ∃ rest, (s.deliv c).readyOrder = b :: rest := by
  obtain ⟨x, hx, hb⟩ := Option.bind_eq_some_iff.1 h
  obtain ⟨y, hy, e⟩ := Option.map_eq_some_iff.1 hb
  obtain ⟨rfl, rfl⟩ := Prod.mk.inj e
  obtain ⟨k, -, hk⟩ := List.exists_of_findSome?_eq_some hx
  exact ⟨List.find?_some hk, List.head?_eq_some_iff.1 hy⟩

/-- A retransmission is chosen for the batch that heads the resend list, and a new batch for the one that heads the
ready order of an eligible channel. -/
theorem State.choice_cases {src : Source} (h : s.choice = some src) :
    (∀ c b, src = .resend c b → ∃ rest, s.resend = (c, b) :: rest) ∧
      ∀ c b, src = .batch c b → s.eligible c = true ∧ ∃ rest, (s.deliv c).readyOrder = b :: rest := by
  unfold State.choice at h
  split at h
  · obtain rfl := Option.some.inj h; simp
  · split at h
    · obtain rfl := Option.some.inj h; simp
    · split at h
      · obtain rfl := Option.some.inj h; simp
      · split at h
        · obtain rfl := Option.some.inj h; simp
        · split at h
          · next c b rest hr =>
            obtain rfl := Option.some.inj h
            simp [hr]
          · obtain ⟨⟨c, b⟩, hp, rfl⟩ := Option.map_eq_some_iff.1 h
            refine ⟨by simp, fun c' b' e => ?_⟩
            obtain ⟨rfl, rfl⟩ := Source.batch.inj e
            exact State.newBatch_eq_some hp

/-- An eligible channel has room in its window. -/
theorem State.Windowed.room (h : s.Windowed named) (he : s.eligible c = true)
    (ha : (s.chan c).config.autoAck = false) : (s.deliv c).inflightOrder.length < (s.chan c).config.window := by
  have law := h.law c
  have mem (b : BatchId) : b ∈ (s.deliv c).inflightOrder ↔ ((s.deliv c).slot b).state = .inflight := by
    change ((s.view named c).places b).inflight ↔ ((s.view named c).batches.slot b).state = _
    cases law.placed b <;> simp [*]
  have count : (s.deliv c).count .inflight = (s.deliv c).inflightOrder.length :=
    ChanDelivery.count_eq_length law.nodup.2 mem
  rw [← count]
  simp only [State.eligible, ha, Bool.false_or, Bool.and_eq_true, decide_eq_true_eq] at he
  exact he.2

theorem State.Windowed.startBatch {rest : List BatchId} (h : s.Windowed named)
    (hl : s.arbiter.transmission = none) (he : s.eligible c = true) (hr : (s.deliv c).readyOrder = b :: rest) :
    (s.startBatch c b).Windowed named := by
  have sent := h.transmit hl (.batch c b) (((s.deliv c).slot b).frame c false)
  have law := (sent.law c).send (b := b) hr ⟨_, rfl, .inl rfl⟩ (h.room he)
  exact State.Windowed.aside (sent.modDeliv c (fun d => d.send b (s.chan c).config.autoAck) law)
    ⟨fun _ => ⟨rfl, rfl⟩, fun _ => rfl, rfl, rfl⟩

theorem State.Windowed.startFrom {src : Source} (h : s.Windowed named) (hl : s.arbiter.transmission = none)
    (hc : s.choice = some src) : (s.startFrom src).Windowed named := by
  obtain ⟨resent, batch⟩ := State.choice_cases hc
  unfold State.startFrom
  split
  · exact h.transmit hl _ _
  · split
    · exact h.transmit hl _ _
    · exact h
  · exact h.transmit hl _ _
  · unfold State.startNotice
    split
    · exact h
    · next n rest _ =>
      have taken : s.Aside (s.modArb fun a => { a with notices := rest, missed := 0 }) := {}
      exact (h.aside taken).transmit hl _ _
  · next c b =>
    obtain ⟨rest, hr⟩ := resent c b rfl
    exact h.startResend hl hr
  · next c b =>
    obtain ⟨he, rest, hr⟩ := batch c b rfl
    exact h.startBatch hl he hr

/-! ## Runs begun, ended and configured (R6 to R9, R19, R20) -/

/-- A channel outside a run given another record and numbers. -/
theorem State.Windowed.outside (h : s.Windowed named) (hs : (s.chan c).state.inRun = false) (f : Channel → Channel)
    (hr : 1 ≤ (f (s.chan c)).config.batchSize ∧ 1 ≤ (f (s.chan c)).config.window) : (s.modChan c f).Windowed named :=
  h.modChan c f ((h.law c).outside hs (fun _ => rfl) ⟨rfl, rfl⟩ rfl rfl hr)

theorem State.Windowed.configure (h : s.Windowed named) (hs : (s.chan c).state.inRun = false) {g : ChanConfig}
    (hr : g.InRange) : (s.configure c g).Windowed named := by
  have line (a : Arbiter) (old : ClassId) : (a.changeClass c old g.cls).transmission = a.transmission := by
    unfold Arbiter.changeClass
    split <;> rfl
  have moved : s.Aside (s.modArb fun a => a.changeClass c (s.chan c).config.cls g.cls) := { line := line _ _ }
  exact (h.aside moved).outside hs (fun ch => { ch with config := g }) ⟨hr.batchSize.1, hr.window.1⟩

theorem State.Windowed.bind (h : s.Windowed named) (hs : (s.chan c).state.inRun = false) (x : BankId) :
    (s.bind c x).Windowed named := by
  have counted : s.Aside ((s.addRef x).dropRef? (s.chan c).active) := {}
  have ranges : 1 ≤ (s.chan c).config.batchSize ∧ 1 ≤ (s.chan c).config.window := (h.law c).ranges
  exact (h.aside counted).outside (by simpa using hs) _ (by simpa using ranges)

theorem State.Windowed.start (h : s.Windowed named) (hs : (s.chan c).state.inRun = false) :
    (s.start c).Windowed named := by
  have begun := h.outside hs (fun ch => { ch with
    session := ch.session + 1, phase := 0, fill := 0, outIndex := 0, flags := .none, state := .running })
    (h.law c).ranges
  exact State.Windowed.aside (begun.modDeliv c (fun d => { d with seqCounter := 0, pendingLost := 0 })
    ((begun.law c).recount rfl rfl rfl rfl)) ⟨fun _ => ⟨rfl, rfl⟩, fun _ => rfl, rfl, rfl⟩

theorem State.Windowed.clearChannel (h : s.Windowed named) (hs : (s.chan c).state.inRun = false) :
    (s.clearChannel c).Windowed named := by
  have dropped : s.Aside (s.dropRef? (s.chan c).active) := {}
  have reset := (h.aside dropped).configure (c := c) (by simpa using hs) ChanConfig.default_inRange
  have state : (((s.dropRef? (s.chan c).active).configure c .default).chan c).state.inRun = false := by
    simpa [State.configure] using hs
  exact reset.outside state _ (reset.law c).ranges

theorem State.Windowed.endRun (h : s.Windowed named) (c : ChanId) (st : ChanState) (ds : DoneStatus) :
    (s.endRun c st ds).Windowed named := by
  have line : (s.endRun c st ds).onLine = s.onLine := by unfold State.onLine; rw [State.endRun_arbiter]
  refine h.at c (fun j hj => ?_) (by rw [State.endRun_resend]; exact h.resend.filter _) ?_
  · simp only [State.view, State.endRun_chan_ne _ _ _ _ _ hj, State.endRun_deliv_ne _ _ _ _ _ hj,
      State.endRun_resend, line]
    simp [hj]
  · refine BatchView.Vacant.law ⟨fun b => ?_, ?_, ?_, fun b => ?_⟩ ?_
    all_goals simp only [State.view, State.endRun_deliv_same, State.endRun_chan_same, State.endRun_resend]
    · simp [ChanDelivery.slot, BatchSlot.free]
    · simp
    · simp
    · exact (h.law c).ranges

theorem State.Windowed.faultClaim (h : s.Windowed named) (c : ChanId) (cause : FaultCause) :
    (s.faultClaim c cause).1.Windowed named := by
  unfold State.faultClaim
  split
  · exact h.endRun c _ _
  · exact h

theorem map_channel {es : List SnapEntry} {f : SnapEntry → SnapEntry} (hf : ∀ e, (f e).channel = e.channel) :
    (es.map f).map (·.channel) = es.map (·.channel) := by
  rw [List.map_map]
  exact List.map_congr_left fun e _ => hf e

/-- The entries of the dispatch in flight rewritten, each for the same channel. -/
theorem State.WindowLaw.reentry {t : State} {d d' : Dispatch} (h : s.WindowLaw) (ha : s.Aside t)
    (hd : s.engine.dispatch = some d) (ht : t.engine.dispatch = some d')
    (hc : d'.snapshot.map (·.channel) = d.snapshot.map (·.channel)) : t.WindowLaw := by
  refine State.windowLaw_iff.2 ⟨(h.windowed.aside ha).rename fun c hn => .inl ?_, fun x hx => ?_⟩
  · obtain ⟨x, hx, e, he, hce⟩ := hn
    obtain rfl := Option.some.inj (ht.symm.trans hx)
    have mem : c ∈ d.snapshot.map (·.channel) := hc ▸ List.mem_map.2 ⟨e, he, hce⟩
    obtain ⟨e, he, hce⟩ := List.mem_map.1 mem
    exact ⟨d, hd, e, he, hce⟩
  · obtain rfl := Option.some.inj (ht.symm.trans hx)
    exact hc.symm ▸ h.entries d hd

theorem State.WindowLaw.strike (h : s.WindowLaw) (c : ChanId) : (s.strike c).WindowLaw := by
  have same : s.Aside (s.strike c) := ⟨fun _ => ⟨rfl, rfl⟩, fun _ => rfl, rfl, rfl⟩
  have strike : (s.strike c).engine.dispatch = s.engine.dispatch.map fun d => { d with
    snapshot := d.snapshot.map fun e => if e.channel = c then { e with struck := true } else e } := rfl
  cases hd : s.engine.dispatch with
  | none => exact h.aside same (by rw [strike, hd]; rfl)
  | some d =>
    refine h.reentry same hd (strike.trans (congrArg (Option.map _) hd)) (map_channel fun e => ?_)
    split <;> rfl

/-! ## Stops (R13, R14, R21) -/

/-- A RUNNING channel stopped. -/
theorem State.Windowed.stop (h : s.Windowed named) (hs : (s.chan c).state = .running) (f : Channel → Channel)
    (hf : (f (s.chan c)).state = .stopping ∧ (f (s.chan c)).config = (s.chan c).config) :
    (s.modChan c f).Windowed named := by
  have undrained := (h.law c).undrained (by show (s.chan c).state ≠ _; rw [hs]; decide)
  obtain ⟨placed, filling, nodup, window, autoAck, ranges, -, -⟩ := h.law c
  refine h.modChan c f ?_
  rw [hf.1, hf.2]
  exact ⟨placed, filling, nodup, window, autoAck, ranges, nofun, fun hd => nomatch undrained.symm.trans hd⟩

theorem State.Windowed.stopRequest (h : s.Windowed named) (c : ChanId) : (s.stopRequest c).Windowed named := by
  by_cases hs : (s.chan c).state = .running
  · rw [State.stopRequest_eq hs]
    exact (h.stop hs (fun _ => (s.chan c).watchStopped) ⟨rfl, rfl⟩).aside
      ⟨fun _ => ⟨rfl, rfl⟩, fun _ => rfl, rfl, rfl⟩
  · rw [State.stopRequest_ignored hs]
    exact h

theorem State.WindowLaw.closeAtStop (h : s.WindowLaw) (hs : (s.chan c).state = .stopping) :
    (s.closeAtStop c).1.WindowLaw := by
  refine h.of_windowed (by simp) ?_
  unfold State.closeAtStop
  split
  · exact h.windowed
  · next hn => exact h.windowed.closeBatch hs fun hx => hn (State.closeDeferred_iff.2 hx)

theorem State.WindowLaw.stopChannel (h : s.WindowLaw) (hs : (s.chan c).state = .running) (tag : Byte) :
    (s.stopChannel c tag).1.WindowLaw := by
  let taken (ch : Channel) : Channel :=
    { ch with state := .stopping, stopCause := some .command, opSlot := .pending .stop tag }
  have stopped : (s.modChan c taken).WindowLaw := h.of_windowed rfl (h.windowed.stop hs taken ⟨rfl, rfl⟩)
  have ignored : ((s.modChan c taken).ignoreRequests c).WindowLaw :=
    stopped.aside ⟨fun _ => ⟨rfl, rfl⟩, fun _ => rfl, rfl, rfl⟩
  exact ignored.closeAtStop (by simp [taken])

theorem State.WindowLaw.takeStopRequest (h : s.WindowLaw) : s.takeStopRequest.1.WindowLaw := by
  unfold State.takeStopRequest
  split
  · exact h
  · next c rest _ =>
    have taken : State.WindowLaw { s with stopRequests := rest } :=
      h.aside ⟨fun _ => ⟨rfl, rfl⟩, fun _ => rfl, rfl, rfl⟩ rfl
    dsimp only
    split
    · next hs =>
      have stopped := taken.of_windowed (by simp) (taken.windowed.stopRequest c)
      refine stopped.closeAtStop ?_
      rw [State.stopRequest_chan_same, Channel.stoppedIf, if_pos ⟨trivial, hs⟩]
      rfl
    · exact taken

/-! ## The sum engine (R65, R68 to R71) -/

/-- The snapshot of a dispatch has one entry for each of some RUNNING channels. -/
theorem State.snapshot_channels (s : State) (l : LaneId) (p : SlotId) :
    ((s.snapshot l p).map (·.channel)).Nodup ∧ ∀ c ∈ (s.snapshot l p).map (·.channel), (s.chan c).state = .running := by
  have channels : (s.snapshot l p).map (·.channel) = (List.finRange 16).filter fun c =>
      (s.chan c).state == .running && (s.chan c).config.lane == l && (s.chan c).config.slot == p := by
    unfold State.snapshot
    rw [List.map_map]
    exact List.map_id _
  rw [channels]
  refine ⟨(List.nodup_finRange 16).filter _, fun c hc => ?_⟩
  simp only [List.mem_filter, Bool.and_eq_true, beq_iff_eq] at hc
  exact hc.2.1.1

theorem State.WindowLaw.startDispatch (h : s.WindowLaw) (l : LaneId) (x : FifoEntry) :
    (s.startDispatch l x).WindowLaw := by
  obtain ⟨nodup, running⟩ := s.snapshot_channels l x.slot
  have held : s.Aside ((s.modLane l Lane.popHead).setHolds (s.snapshot l x.slot) true) := {}
  have same : s.Aside (s.startDispatch l x) :=
    held.trans ⟨fun _ => ⟨rfl, rfl⟩, fun _ => rfl, rfl, rfl⟩
  refine State.windowLaw_iff.2 ⟨(h.windowed.aside same).rename fun c hc => .inr ?_, fun d hd => ?_⟩
  · obtain ⟨d, hd, e, he, rfl⟩ := hc
    obtain rfl := Option.some.inj hd
    rw [(same.chan _).1, running _ (List.mem_map.2 ⟨e, he, rfl⟩)]
    decide
  · obtain rfl := Option.some.inj hd
    exact nodup

/-- Flags and watches of an output handed on speak of no batch; the output itself is appended. -/
theorem State.Windowed.counted (h : s.Windowed named) (hc : named c) (inRun : (s.chan c).state.inRun = true) (r : Result)
    (taps : Nat) : (s.counted c r taps).Windowed named := by
  have flagged : (s.setFlags c r taps).Windowed named := h.aside (State.modChan_aside s c _)
  have undrained : ((s.setFlags c r taps).deliv c).drainWatch = false := by
    by_contra hd
    rw [Bool.not_eq_false] at hd
    exact ((flagged.law c).drain hd).2.2 hc
  have appended : (s.appended c r taps).1.Windowed named :=
    flagged.append c _ _ (by simpa [State.setFlags] using inRun) undrained
  have watched : (s.watched c r taps).state.Windowed named :=
    appended.aside (t := (s.watched c r taps).state) (by unfold State.watched; exact {})
  exact watched.aside (State.modChan_aside _ c _)

theorem State.swapPoint_aside (s : State) (c : ChanId) : s.Aside (s.swapPoint c) := by
  unfold State.swapPoint
  split
  · exact .refl s
  · exact State.Aside.trans (t := s.dropRef? (s.chan c).active) {} (State.modChan_aside _ c _)

theorem State.leaveRequests_aside (s : State) (c : ChanId) (ws : List WatchId) : s.Aside (s.leaveRequests c ws) := {}

theorem State.Windowed.swapAndStop (h : s.Windowed named) (c : ChanId) (before after : Bool) :
    (s.swapAndStop c before after).Windowed named := by
  have stopped {t : State} (ht : t.Windowed named) (a : Bool) :
      State.Windowed named (if a then t.stopRequest c else t) := by
    split
    · exact ht.stopRequest c
    · exact ht
  exact stopped ((stopped h before).aside (State.swapPoint_aside _ c)) after

theorem State.Windowed.handOn (h : s.Windowed named) (hc : named c) (inRun : (s.chan c).state.inRun = true) (r : Result)
    (taps : Nat) (choice : CompletionChoice) : (s.handOn c r taps choice).1.Windowed named := by
  rw [State.handOn_eq]
  exact ((h.counted hc inRun r taps).swapAndStop c _ _).aside (State.leaveRequests_aside _ _ _)

theorem State.Windowed.completeEntry {e : SnapEntry} (h : s.Windowed named) (he : named e.channel)
    (choice : CompletionChoice) (d : Dispatch) :
    (s.completeEntry choice d e).1.Windowed fun c => named c ∧ c ≠ e.channel := by
  have closes {t : State} (ht : t.Windowed named) :
      (t.closeIfStopping e.channel).1.Windowed fun c => named c ∧ c ≠ e.channel :=
    (ht.rename (named' := fun c => named c ∧ c ≠ e.channel) fun _ hc => .inl hc.1).closeIfStopping fun hc => hc.2 rfl
  have sample : s.Aside (s.takeSample e.channel d.sample) :=
    State.Aside.trans (t := s.modRing _ _) {} (State.modChan_aside _ e.channel _)
  have sampled := h.aside sample
  unfold State.completeEntry State.settleEntry
  split
  · next hp =>
    split
    · exact (h.faultClaim _ _).rename fun _ hc => .inl hc.1
    · have inRun : ((s.takeSample e.channel d.sample).chan e.channel).state.inRun = true := by
        rw [(sample.chan _).1]
        exact guardPasses.inRun (State.passes_iff.1 hp)
      unfold State.settlePassing Raising.andThen
      dsimp only
      refine closes ?_
      split
      · split
        · exact sampled.handOn he inRun _ _ _
        · exact sampled
      · exact sampled
  · exact closes h

theorem State.Windowed.settleAll (choice : CompletionChoice) (d : Dispatch) (es : List SnapEntry)
    (hn : (es.map (·.channel)).Nodup) (h : s.Windowed fun c => c ∈ es.map (·.channel)) :
    (State.settleAll choice d es s).1.Windowed fun _ => False := by
  induction es generalizing s with
  | nil => exact h.rename fun _ hc => hc.elim
  | cons e es ih =>
    rw [List.map_cons, List.nodup_cons] at hn
    refine ih hn.2 ((h.completeEntry List.mem_cons_self choice d).rename fun c hc => .inl ?_)
    exact ⟨List.mem_cons_of_mem _ hc, fun e' => hn.1 (e' ▸ hc)⟩

theorem State.entryOf_dispatch {d : Dispatch} {e : SnapEntry} (h : s.entryOf c = some (d, e)) :
    s.engine.dispatch = some d := by
  simp only [State.entryOf, Option.bind_eq_some_iff, Option.map_eq_some_iff, Prod.mk.injEq] at h
  obtain ⟨x, hx, -, -, rfl, -⟩ := h
  exact hx

theorem State.WindowLaw.markDamage {d : Dispatch} (h : s.WindowLaw) (hd : s.engine.dispatch = some d) (c : ChanId)
    (b : BankId) (k : Nat) : (s.markDamage d c b k).WindowLaw :=
  h.reentry {} hd rfl (map_channel fun e => by split <;> rfl)

theorem State.WindowLaw.complete {d : Dispatch} (h : s.WindowLaw) (hd : s.engine.dispatch = some d)
    (choice : CompletionChoice) : (s.complete d choice).WindowLaw := by
  have channels : ((s.upsetHistory d choice.badHistory).workDispatch d).snapshot.map (·.channel) =
      d.snapshot.map (·.channel) := by
    rw [State.workDispatch_snapshot]
    exact map_channel fun e => State.workedEntry_channel _ d e
  have worked : s.Aside (s.worked d choice) := { line := by simp [State.worked] }
  have settled := State.Windowed.settleAll choice ((s.upsetHistory d choice.badHistory).workDispatch d) _
    (channels ▸ h.entries d hd) ((h.windowed.aside worked).rename fun c hc => .inl (by
      obtain ⟨e, he, hc⟩ := List.mem_map.1 (channels ▸ hc)
      exact ⟨d, hd, e, he, hc⟩))
  have completed : (s.settled d choice).1.Aside (s.complete d choice) := by
    rw [State.complete_eq]
    exact {}
  have ended := (s.complete_engine d choice).1
  refine State.windowLaw_iff.2 ⟨(settled.aside completed).rename fun c hc => ?_, fun d' hd' => ?_⟩
  · obtain ⟨d', hd', -⟩ := hc
    exact nomatch ended.symm.trans hd'
  · exact nomatch ended.symm.trans hd'

/-! ## Resets (R114, R126, R144, R148) -/

theorem State.resetBlocks_windowLaw (s : State) : s.resetBlocks.WindowLaw := by
  refine State.windowLaw_iff.2 ⟨⟨fun c => ?_, List.nodup_nil⟩, nofun⟩
  refine BatchView.Vacant.law ⟨fun b => ?_, ?_, ?_, fun b => List.not_mem_nil⟩ ?_
  all_goals simp only [State.view, State.resetBlocks_deliv, State.resetBlocks_chan]
  · simp [ChanDelivery.reset, ChanDelivery.slot, BatchSlot.free]
  · exact ⟨rfl, rfl⟩
  · rfl
  · decide

theorem State.performDeviceReset_windowLaw (s : State) : s.performDeviceReset.WindowLaw :=
  s.resetBlocks_windowLaw.aside (State.modLink_aside _ _) rfl

theorem State.performPowerReset_windowLaw (s : State) (cause : ResetCause) (hrx : Bool) :
    (s.performPowerReset cause hrx).WindowLaw :=
  s.resetBlocks_windowLaw.aside (State.modLink_aside _ _) rfl

/-! ## Ends of transmissions (R116, R125) -/

/-- A frame that carries no batch leaves the line. -/
theorem State.WindowLaw.lineFree {tr : Transmission} (h : s.WindowLaw) (hl : s.arbiter.transmission = some tr)
    (hsrc : ∀ c b, tr.source ≠ .batch c b ∧ tr.source ≠ .resend c b) : s.freeTransmitter.WindowLaw := by
  refine h.of_windowed rfl (h.windowed.freeTransmitter fun j a => ?_)
  rw [← Bool.not_eq_true]
  intro hs
  obtain ⟨t, ht, hj⟩ := h.windowed.sent_onLine hs
  obtain rfl := Option.some.inj (hl.symm.trans ht)
  exact hj.elim (hsrc j a).1 (hsrc j a).2

theorem State.WindowLaw.replySent (h : s.WindowLaw) : s.replySent.WindowLaw := by
  unfold State.replySent State.replyEffect
  repeat' split
  · exact (h.aside (State.modLink_aside _ _)).aside (State.modLink_aside _ _)
  · exact h.aside (State.modLink_aside _ _)
  · exact State.performDeviceReset_windowLaw _
  · exact h.aside (State.modLink_aside _ _)
  · exact h

theorem State.WindowLaw.sent {tr : Transmission} (h : s.WindowLaw) (hl : s.arbiter.transmission = some tr) :
    (s.freeTransmitter.sent tr.source).1.WindowLaw := by
  obtain ⟨src, f⟩ := tr
  cases src with
  | greeting =>
    exact (h.lineFree hl fun _ _ => ⟨nofun, nofun⟩).aside
      (State.modLink_aside _ fun k => { k with greeting := false }) rfl
  | reply => exact (h.lineFree hl fun _ _ => ⟨nofun, nofun⟩).replySent
  | operation c => exact (h.lineFree hl fun _ _ => ⟨nofun, nofun⟩).aside (State.modChan_aside _ c fun ch =>
      { ch with opSlot := if ch.opSlot.isUnreported then .none else ch.opSlot }) rfl
  | notice => exact h.lineFree hl fun _ _ => ⟨nofun, nofun⟩
  | resend c b => exact h.of_windowed (by simp [State.sent]; rfl) (h.windowed.batchSent hl (.inr rfl))
  | batch c b => exact h.of_windowed (by simp [State.sent]; rfl) (h.windowed.batchSent hl (.inl rfl))

theorem State.WindowLaw.abandonTransmission (h : s.WindowLaw) : s.abandonTransmission.WindowLaw := by
  unfold State.abandonTransmission
  split
  · exact h
  · next tr hl =>
    obtain ⟨src, f⟩ := tr
    cases src with
    | greeting => exact h.lineFree hl fun _ _ => ⟨nofun, nofun⟩
    | reply => exact h.lineFree hl fun _ _ => ⟨nofun, nofun⟩
    | operation c => exact h.lineFree hl fun _ _ => ⟨nofun, nofun⟩
    | notice =>
      exact (h.lineFree hl fun _ _ => ⟨nofun, nofun⟩).aside ⟨fun _ => ⟨rfl, rfl⟩, fun _ => rfl, rfl, rfl⟩ rfl
    | resend c b => exact h.of_windowed (by simp [State.abandon]; rfl) (h.windowed.batchAbandoned hl (.inr rfl))
    | batch c b => exact h.of_windowed (by simp [State.abandon]; rfl) (h.windowed.batchAbandoned hl (.inl rfl))

/-! ## The link controller (R129, R134) -/

theorem State.WindowLaw.modLink (h : s.WindowLaw) (f : Link → Link) : (s.modLink f).WindowLaw :=
  h.aside (State.modLink_aside s f)

/-- The link controller replaced, and nothing raised. -/
theorem State.WindowLaw.modLink_silent (h : s.WindowLaw) (f : Link → Link) :
    (s.modLink f, ([] : List Notice)).1.WindowLaw := h.modLink f

theorem State.WindowLaw.checkFrame (h : s.WindowLaw) (len : Byte) (body : List Byte) :
    (s.checkFrame len body).1.WindowLaw := by
  unfold State.checkFrame State.route
  dsimp only
  split
  · split
    · split
      · exact h.of_windowed (by simp) (h.windowed.acknowledge _ _)
      · exact h.modLink_silent _
    · exact h.modLink_silent _
  · exact h.modLink_silent _

theorem State.WindowLaw.takeByte (h : s.WindowLaw) (x : Byte) : (s.takeByte x).1.WindowLaw := by
  unfold State.takeByte
  split
  · split
    · exact h.modLink_silent _
    · exact h
  · split
    · exact h.modLink_silent _
    · exact h.modLink_silent _
  · dsimp only
    split
    · exact h.modLink_silent _
    · exact (h.modLink _).checkFrame _ _

end Sys2Proof.Machine
end

section
/-! PROOFS. What the owner of every command and every event leave of the window law, and from it that a step keeps the
window law (O59). -/

namespace Sys2Proof.Machine

/-! ## The owners of the commands -/

section
variable {s : State}

theorem deviceResetOwner_window (h : s.WindowLaw) : (deviceResetOwner s).state.WindowLaw :=
  h.modLink fun k => { k with resetPending := true }

theorem linkSetOwner_window (p : List Byte) (h : s.WindowLaw) : (linkSetOwner p s).state.WindowLaw := by
  unfold linkSetOwner
  split <;> exact h

theorem deviceQueryOwner_window (p : List Byte) (h : s.WindowLaw) : (deviceQueryOwner p s).state.WindowLaw := by
  unfold deviceQueryOwner
  split
  · exact h.aside {}
  · exact h

theorem bankOpenOwner_window (p : List Byte) (h : s.WindowLaw) : (bankOpenOwner p s).state.WindowLaw := by
  unfold bankOpenOwner
  dsimp only
  repeat' split
  all_goals exact h.aside {}

theorem bankDataOwner_window (p : List Byte) (h : s.WindowLaw) : (bankDataOwner p s).state.WindowLaw := by
  unfold bankDataOwner
  dsimp only
  repeat' split
  all_goals exact h.aside {}

theorem bankSealOwner_window (p : List Byte) (us : List (Fin 256 × Sample)) (h : s.WindowLaw) :
    (bankSealOwner p us s).state.WindowLaw := by
  unfold bankSealOwner
  dsimp only
  repeat' split
  all_goals exact h.aside {}

theorem bankFreeOwner_window (p : List Byte) (h : s.WindowLaw) : (bankFreeOwner p s).state.WindowLaw := by
  unfold bankFreeOwner
  repeat' split
  all_goals exact h.aside {}

theorem bankQueryOwner_window (p : List Byte) (h : s.WindowLaw) : (bankQueryOwner p s).state.WindowLaw := by
  unfold bankQueryOwner
  split <;> exact h

theorem laneSetOwner_window (p : List Byte) (h : s.WindowLaw) : (laneSetOwner p s).state.WindowLaw := by
  unfold laneSetOwner
  dsimp only
  repeat' split
  all_goals exact h.aside {}

theorem laneQueryOwner_window (p : List Byte) (h : s.WindowLaw) : (laneQueryOwner p s).state.WindowLaw := by
  unfold laneQueryOwner
  repeat' split
  all_goals exact h.aside {}

theorem ChanState.not_inRun {st : ChanState} (h : st = .idle ∨ st = .ready) : st.inRun = false := by
  rcases h with rfl | rfl <;> rfl

theorem chanConfigOwner_window (p : List Byte) (h : s.WindowLaw) : (chanConfigOwner p s).state.WindowLaw := by
  cases hc : indexOf 16 (byteAt p 0) with
  | none => rw [chanConfigOwner_noChannel s (indexOf_eq_none.1 hc)]; exact h
  | some c =>
    by_cases hs : (s.chan c).state = .idle ∨ (s.chan c).state = .ready
    · rw [chanConfigOwner_settled hc hs]
      split
      · exact h
      · next g hg =>
        exact h.of_windowed rfl (h.windowed.configure (ChanState.not_inRun hs) (configOperands_inRange hg))
    · rw [chanConfigOwner_wrongState hc hs]; exact h

theorem chanBindOwner_window (p : List Byte) (h : s.WindowLaw) : (chanBindOwner p s).state.WindowLaw := by
  cases hc : indexOf 16 (byteAt p 0) with
  | none => rw [chanBindOwner_noChannel s (indexOf_eq_none.1 hc)]; exact h
  | some c =>
    by_cases hs : (s.chan c).state = .idle ∨ (s.chan c).state = .ready
    · rw [chanBindOwner_settled hc hs]
      split
      · exact h
      · split
        · exact h
        · exact h.of_windowed (by simp) (h.windowed.bind (ChanState.not_inRun hs) _)
    · rw [chanBindOwner_wrongState hc hs]; exact h

theorem chanStartOwner_window (p : List Byte) (h : s.WindowLaw) : (chanStartOwner p s).state.WindowLaw := by
  unfold chanStartOwner
  split
  · exact h
  · split
    · next hs =>
      split
      · exact h.of_windowed rfl (h.windowed.start (by rw [hs]; rfl))
      · exact h
    all_goals exact h

theorem chanStopOwner_window (tag : Byte) (p : List Byte) (h : s.WindowLaw) :
    (chanStopOwner tag p s).state.WindowLaw := by
  unfold chanStopOwner
  split
  · exact h
  · split
    · next hs =>
      split
      · exact h
      · exact h.stopChannel hs tag
    all_goals exact h

theorem chanAbortOwner_window (p : List Byte) (h : s.WindowLaw) : (chanAbortOwner p s).state.WindowLaw := by
  unfold chanAbortOwner
  split
  · exact h
  · next c _ =>
    split
    · exact (h.of_windowed (by simp) (h.windowed.endRun c .ready .aborted)).strike c
    · exact h

theorem chanClearOwner_window (p : List Byte) (h : s.WindowLaw) : (chanClearOwner p s).state.WindowLaw := by
  have cleared (c : ChanId) (hs : (s.chan c).state.inRun = false) :
      (Answer.done .ok (s.clearChannel c)).state.WindowLaw :=
    h.of_windowed (by simp) (h.windowed.clearChannel hs)
  unfold chanClearOwner
  split
  · exact h
  · next c _ =>
    split
    · next hs => exact cleared c (by rw [hs]; rfl)
    · next hs => exact cleared c (by rw [hs]; rfl)
    · next hs => exact cleared c (by rw [hs]; rfl)
    all_goals exact h

/-- A swap counts references and writes the banks and the operation slot of its channel. -/
theorem State.swap_aside (s : State) (c : ChanId) (b : BankId) (tag : Byte) :
    s.Aside (if (s.chan c).state = .ready then s.swapNow c b tag else s.stageSwap c b tag) := by
  split
  · exact State.Aside.trans (t := (s.addRef b).dropRef? (s.chan c).active) {} (State.modChan_aside _ c _)
  · exact State.Aside.trans (t := s.addRef b) {} (State.modChan_aside _ c _)

theorem chanSwapOwner_window (tag : Byte) (p : List Byte) (h : s.WindowLaw) :
    (chanSwapOwner tag p s).state.WindowLaw := by
  cases hc : indexOf 16 (byteAt p 0) with
  | none => rw [chanSwapOwner_noChannel s (indexOf_eq_none.1 hc)]; exact h
  | some c =>
    by_cases hs : (s.chan c).state = .ready ∨ (s.chan c).state = .running
    · rw [chanSwapOwner_taken hc hs]
      split
      · exact h
      · split
        · exact h
        · split
          · exact h
          · exact h.aside (s.swap_aside c _ tag) (by rw [Answer.done_state]; split <;> simp)
    · rw [chanSwapOwner_wrongState hc hs]; exact h

theorem chanQueryOwner_window (p : List Byte) (h : s.WindowLaw) : (chanQueryOwner p s).state.WindowLaw := by
  unfold chanQueryOwner
  split
  · exact h
  · next c _ =>
    dsimp only
    split
    · exact h.aside (State.modChan_aside s c fun ch => { ch with counters := .zero })
    · exact h

theorem chanRotateOwner_window (p : List Byte) (h : s.WindowLaw) : (chanRotateOwner p s).state.WindowLaw := by
  unfold chanRotateOwner
  split
  · split
    · exact h.aside ⟨fun _ => ⟨rfl, rfl⟩, fun _ => rfl, rfl, rfl⟩ rfl
    · exact h
  · exact h

theorem watchSetOwner_window (p : List Byte) (h : s.WindowLaw) : (watchSetOwner p s).state.WindowLaw := by
  unfold watchSetOwner
  split
  all_goals exact h.aside {}

theorem watchOffOwner_window (p : List Byte) (h : s.WindowLaw) : (watchOffOwner p s).state.WindowLaw := by
  unfold watchOffOwner
  split
  all_goals exact h.aside {}

theorem watchQueryOwner_window (p : List Byte) (h : s.WindowLaw) : (watchQueryOwner p s).state.WindowLaw := by
  unfold watchQueryOwner
  split <;> exact h

end

/-! ## Every command -/

theorem State.take_window {s : State} (h : s.WindowLaw) (c : Command) (tag : Byte) (p : List Byte)
    {owner : State → Answer} (ho : ∀ {u : State}, u.WindowLaw → (owner u).state.WindowLaw) :
    (s.take c tag p owner).WindowLaw := by
  unfold State.take
  split
  · have judged : (s.popInbound.judgeCommand c p owner).state.WindowLaw := by
      have popped : s.popInbound.WindowLaw := h.modLink _
      unfold State.judgeCommand
      split
      · exact popped
      · split
        · exact popped
        · exact ho popped
    exact (judged.aside (State.raiseAll_aside _ _)).modLink _
  · exact h

/-- The notices of an event leave the window law. -/
theorem State.WindowLaw.settle {r : Raising} (h : r.1.WindowLaw) : r.settle.WindowLaw :=
  h.aside (State.raiseAll_aside _ _) (by simp [Raising.settle])

theorem execAckTimerExpiry_window {s : State} (h : s.WindowLaw) (c : ChanId) (b : BatchId) :
    ∃ t, execAckTimerExpiry c b s = .next t ∧ t.WindowLaw := by
  refine ⟨_, rfl, ?_⟩
  split
  · next ht =>
    split
    · exact h.of_windowed rfl (h.windowed.relist ht)
    · exact State.WindowLaw.settle (h.of_windowed (by simp) (h.windowed.dropBatch ht))
  · exact h

theorem exec_window (i : Instr) {s : State} (h : s.WindowLaw) : ∃ t, exec i s = .next t ∧ t.WindowLaw := by
  cases i with
  | powerReset hrx => exact ⟨_, rfl, s.performPowerReset_windowLaw _ _⟩
  | pinReset hrx => exact ⟨_, rfl, s.performPowerReset_windowLaw _ _⟩
  | linkReset =>
    refine ⟨_, rfl, ?_⟩
    split
    · split
      · exact State.performDeviceReset_windowLaw _
      · exact h.abandonTransmission.modLink _
    · exact h
    · exact h
  | gapTimerExpiry =>
    refine ⟨_, rfl, ?_⟩
    split
    · exact h.modLink _
    · exact h
  | byteArrival x =>
    refine ⟨_, rfl, ?_⟩
    split
    · exact State.WindowLaw.settle ((h.modLink _).takeByte x)
    · exact h
  | byteFramingError =>
    refine ⟨_, rfl, ?_⟩
    split
    · exact h.modLink _
    · exact h
  | wordArrival l w m => exact ⟨_, rfl, h.aside {}⟩
  | dispatchStart =>
    refine ⟨_, rfl, ?_⟩
    split
    · split
      · exact h.startDispatch _ _
      · exact h
    · exact h
  | damageMarking c k =>
    refine ⟨_, rfl, ?_⟩
    split
    · exact h
    · next he =>
      split
      · exact h
      · split
        · exact h.markDamage (State.entryOf_dispatch he) _ _ _
        · exact h
  | dispatchCompletion choice =>
    refine ⟨_, rfl, ?_⟩
    split
    · exact h
    · next d hd => exact h.complete hd choice
  | ackTimerExpiry c b => exact execAckTimerExpiry_window h c b
  | transmissionStart =>
    refine ⟨_, rfl, ?_⟩
    split
    · next src hl hc => exact h.of_windowed (by simp) (h.windowed.startFrom hl hc)
    · exact h
  | sendCompletion =>
    refine ⟨_, rfl, ?_⟩
    split
    · exact h
    · next tr hl => exact State.WindowLaw.settle (h.sent hl)
  | ping tag p => exact ⟨_, rfl, State.take_window h .ping tag p fun hu => hu⟩
  | deviceReset tag p => exact ⟨_, rfl, State.take_window h .deviceReset tag p deviceResetOwner_window⟩
  | linkSet tag p => exact ⟨_, rfl, State.take_window h .linkSet tag p (linkSetOwner_window p)⟩
  | deviceQuery tag p => exact ⟨_, rfl, State.take_window h .deviceQuery tag p (deviceQueryOwner_window p)⟩
  | bankOpen tag p => exact ⟨_, rfl, State.take_window h .bankOpen tag p (bankOpenOwner_window p)⟩
  | bankData tag p => exact ⟨_, rfl, State.take_window h .bankData tag p (bankDataOwner_window p)⟩
  | bankSeal tag p us => exact ⟨_, rfl, State.take_window h .bankSeal tag p (bankSealOwner_window p us)⟩
  | bankFree tag p => exact ⟨_, rfl, State.take_window h .bankFree tag p (bankFreeOwner_window p)⟩
  | bankQuery tag p => exact ⟨_, rfl, State.take_window h .bankQuery tag p (bankQueryOwner_window p)⟩
  | laneSet tag p => exact ⟨_, rfl, State.take_window h .laneSet tag p (laneSetOwner_window p)⟩
  | laneQuery tag p => exact ⟨_, rfl, State.take_window h .laneQuery tag p (laneQueryOwner_window p)⟩
  | chanConfig tag p => exact ⟨_, rfl, State.take_window h .chanConfig tag p (chanConfigOwner_window p)⟩
  | chanBind tag p => exact ⟨_, rfl, State.take_window h .chanBind tag p (chanBindOwner_window p)⟩
  | chanStart tag p => exact ⟨_, rfl, State.take_window h .chanStart tag p (chanStartOwner_window p)⟩
  | chanStop tag p => exact ⟨_, rfl, State.take_window h .chanStop tag p (chanStopOwner_window tag p)⟩
  | chanAbort tag p => exact ⟨_, rfl, State.take_window h .chanAbort tag p (chanAbortOwner_window p)⟩
  | chanClear tag p => exact ⟨_, rfl, State.take_window h .chanClear tag p (chanClearOwner_window p)⟩
  | chanSwap tag p => exact ⟨_, rfl, State.take_window h .chanSwap tag p (chanSwapOwner_window tag p)⟩
  | chanQuery tag p => exact ⟨_, rfl, State.take_window h .chanQuery tag p (chanQueryOwner_window p)⟩
  | chanRotate tag p => exact ⟨_, rfl, State.take_window h .chanRotate tag p (chanRotateOwner_window p)⟩
  | watchSet tag p => exact ⟨_, rfl, State.take_window h .watchSet tag p (watchSetOwner_window p)⟩
  | watchOff tag p => exact ⟨_, rfl, State.take_window h .watchOff tag p (watchOffOwner_window p)⟩
  | watchQuery tag p => exact ⟨_, rfl, State.take_window h .watchQuery tag p (watchQueryOwner_window p)⟩
  | badType type tag p =>
    refine ⟨_, rfl, ?_⟩
    split
    · exact State.WindowLaw.modLink (s := s.popInbound) (h.modLink _) _
    · exact h
  | hrxChangesToSpace => exact ⟨_, rfl, h.modLink _⟩
  | hrxChangesToMark => exact ⟨_, rfl, h.modLink _⟩

/-- Settles O59: every event keeps the window law, and so does the taking of a watch stop request that waits. -/
theorem stepKeepsTheWindowLaw : Obligations.StepKeepsTheWindowLaw := fun s t h hstep => by
  unfold step at hstep
  split at hstep
  · obtain rfl := Host.Outcome.next.inj hstep
    exact h.takeStopRequest.settle
  · next i rest _ =>
    have popped : State.WindowLaw { s with pending := rest } :=
      h.aside ⟨fun _ => ⟨rfl, rfl⟩, fun _ => rfl, rfl, rfl⟩ rfl
    obtain ⟨u, hu, law⟩ := exec_window i popped
    obtain rfl := Host.Outcome.next.inj (hu.symm.trans hstep)
    exact law

end Sys2Proof.Machine
end

section
/-! PROOFS. What an ACK and an ack timer expiry make of the part (O15, O36): the batches freed, and the drain that may
end with the last of them. -/

namespace Sys2Proof.Machine

/-! ## The drain checked (R15, R110) -/

section
variable {s : State} {c : ChanId}

/-- A drain that is not watched or not complete goes on. -/
theorem State.checkDrain_goesOn (h : ¬ ((s.deliv c).drainWatch = true ∧ (s.deliv c).drained = true)) :
    s.checkDrain c = (s, []) := if_neg (by rwa [Bool.and_eq_true])

/-- A complete drain is reported, and watched no longer. -/
theorem State.checkDrain_complete (hw : (s.deliv c).drainWatch = true) (hd : (s.deliv c).drained = true) :
    s.checkDrain c = (s.modDeliv c fun d => { d with drainWatch := false }).drainReport c :=
  if_pos (by rw [Bool.and_eq_true]; exact ⟨hw, hd⟩)

/-- Of the batches the check writes the drain watch alone. -/
theorem State.checkDrain_deliv (s : State) (c : ChanId) : (s.checkDrain c).1.deliv c =
    { s.deliv c with drainWatch := (s.deliv c).drainWatch && !(s.deliv c).drained } := by
  by_cases h : (s.deliv c).drainWatch = true ∧ (s.deliv c).drained = true
  · rw [State.checkDrain_complete h.1 h.2, State.drainReport_deliv, State.modDeliv_deliv_same, h.1, h.2]
    rfl
  · rw [State.checkDrain_goesOn h]
    have : ((s.deliv c).drainWatch && !(s.deliv c).drained) = (s.deliv c).drainWatch := by
      cases hw : (s.deliv c).drainWatch <;> simp_all
    rw [this]

end

/-! ## The expiry of an ack timer (R106, R108) -/

section
variable (s : State) (c : ChanId) (b : BatchId)

/-- A batch dropped, before its drain is checked. -/
def State.dropped : State :=
  (s.modDeliv c fun d =>
    { d.modSlot b (fun _ => .free) with inflightOrder := d.inflightOrder.filter (· != b) }).modChan c fun ch =>
      { ch with counters := { ch.counters with batchesDropped := inc16 ch.counters.batchesDropped } }

/-- The notice of a batch dropped. -/
def State.dropNotice : Notice :=
  let t := (s.deliv c).slot b
  .deliveryLost c t.sequence (BitVec.ofNat 32 (t.outputs.length + t.lost.toNat))

theorem State.dropBatch_eq : s.dropBatch c b =
    (((s.dropped c b).checkDrain c).1, s.dropNotice c b :: ((s.dropped c b).checkDrain c).2) := rfl

/-- The drain is complete without a batch exactly when no other is READY or INFLIGHT. -/
theorem State.dropped_drained : ((s.dropped c b).deliv c).drained = true ↔
    ∀ x, x ≠ b → ((s.deliv c).slot x).state ≠ .ready ∧ ((s.deliv c).slot x).state ≠ .inflight := by
  have slot (x : BatchId) : ((s.dropped c b).deliv c).slot x = if x = b then .free else (s.deliv c).slot x := by
    simp only [State.dropped, State.modChan_deliv, State.modDeliv_deliv_same]
    exact ChanDelivery.slot_of_set rfl x
  rw [ChanDelivery.drained_iff]
  refine forall_congr' fun x => ?_
  rw [slot]
  split
  · next hx => simp [hx, BatchSlot.free]
  · next hx => simp [hx]

theorem State.dropped_drainWatch : ((s.dropped c b).deliv c).drainWatch = (s.deliv c).drainWatch := by
  simp [State.dropped]

/-- A batch dropped and its drain watched no longer, written out. -/
theorem State.dropped_unwatched : ((s.dropped c b).modDeliv c fun d => { d with drainWatch := false }) = { s with
    delivery := s.delivery.set c.val { s.deliv c with
      slots := (s.deliv c).slots.set b.val .free
      inflightOrder := (s.deliv c).inflightOrder.filter (· != b)
      drainWatch := false }
    channels := s.channels.set c.val { s.chan c with
      counters := { (s.chan c).counters with batchesDropped := inc16 (s.chan c).counters.batchesDropped } } } := by
  simp only [State.dropped, State.modDeliv, State.modChan, Vector.set_set, Vector.getElem_set_self]
  rfl

variable {s c b}

theorem exec_ackTimerExpiry_resends (ht : (s.deliv c).timed b = true)
    (hr : ((s.deliv c).slot b).retry < (s.chan c).config.retryLimit) :
    exec (.ackTimerExpiry c b) s = .next { s.modDeliv c fun d =>
      d.modSlot b fun t => { t with retry := t.retry + 1, timer := .stopped } with
        resend := s.resend ++ [(c, b)] } := by
  show execAckTimerExpiry c b s = _
  rw [execAckTimerExpiry, if_pos ht, if_pos hr]
  rfl

theorem exec_ackTimerExpiry_drops (ht : (s.deliv c).timed b = true)
    (hr : (s.chan c).config.retryLimit ≤ ((s.deliv c).slot b).retry) :
    exec (.ackTimerExpiry c b) s = .next (((s.dropped c b).checkDrain c).1.raiseAll
      (s.dropNotice c b :: ((s.dropped c b).checkDrain c).2)) := by
  show execAckTimerExpiry c b s = _
  rw [execAckTimerExpiry, if_pos ht, if_neg (not_lt.2 hr), State.dropBatch_eq]
  rfl

end

/-- Settles O36: below the limit the batch is listed to be sent again; at the limit it is dropped, and the drain goes on
or ends by the cause of the stop. -/
theorem ackTimerExpiryResendsOrDrops : Obligations.AckTimerExpiryResendsOrDrops := by
  intro s c b ms d t last hstate htimer
  have timed : (s.deliv c).timed b = true :=
    ChanDelivery.timed_iff.2 ⟨hstate, fun e => nomatch htimer.symm.trans e⟩
  refine ⟨fun hr => exec_ackTimerExpiry_resends timed hr, fun hr hgo => ?_, fun cause hr hw hlast hs hcause => ?_⟩
  · have goesOn : ¬ (((s.dropped c b).deliv c).drainWatch = true ∧ ((s.dropped c b).deliv c).drained = true) := by
      rw [State.dropped_drainWatch, State.dropped_drained]
      rintro ⟨hw, hl⟩
      exact hgo.elim (fun hn => nomatch hn.symm.trans hw) fun hn => hn hl
    rw [exec_ackTimerExpiry_drops timed hr, State.checkDrain_goesOn goesOn]
    rfl
  · have chan : ((s.dropped c b).modDeliv c fun d => { d with drainWatch := false }).chan c = { s.chan c with
        counters := { (s.chan c).counters with batchesDropped := inc16 (s.chan c).counters.batchesDropped } } := by
      simp [State.dropped]
    rw [exec_ackTimerExpiry_drops timed hr, State.checkDrain_complete ((s.dropped_drainWatch c b).trans hw)
      ((s.dropped_drained c b).2 hlast)]
    cases cause with
    | command =>
      rw [State.drainReport_byCommand _ c (by rw [chan]; exact hs) (by rw [chan]; exact hcause), State.dropped_unwatched]
      simp only [State.modChan, Vector.set_set, Vector.getElem_set_self, if_true]
      rfl
    | watch =>
      rw [State.drainReport_byWatch _ c (by rw [chan]; exact hs) (by rw [chan]; exact hcause), State.dropped_unwatched]
      simp only [State.modChan, Vector.set_set, Vector.getElem_set_self, reduceCtorEq, if_false]
      rfl

/-! ## An ACK (R104, R134) -/

section
variable {s : State} {c : ChanId} {q : Byte}

/-- A good ACK frame names its channel and its sequence. -/
theorem State.route_ack (s : State) (c : ChanId) (tag q : Byte) :
    s.route ⟨0x50, tag, [natByte c.val, q, 0, 0]⟩ = s.acknowledge c q := by
  have operands : ackOperands [natByte c.val, q, 0, 0] = some (c, q) := by
    have index : indexOf 16 (natByte c.val) = some c := indexOf_natByte c (by decide)
    simp [ackOperands, byteAt, index]
  refine (if_pos rfl).trans ?_
  show (match ackOperands [natByte c.val, q, 0, 0] with | some (c, q) => s.acknowledge c q | none => _) = _
  rw [operands]

/-- The last byte of a good frame completes it. -/
theorem exec_byteArrival_complete {x len : Byte} {l : List Byte} (hr : s.link.receiver = .readyForStart)
    (ha : s.link.assembler = .body len l) (hl : l.length + 1 = len.toNat + 2)
    (crc : crc16 (len :: (l ++ [x]).take len.toNat) =
      byteAt (l ++ [x]) (len.toNat + 1) ++ byteAt (l ++ [x]) len.toNat) :
    exec (.byteArrival x) s = .next (State.route
      { s with link := { s.link with rxChar := none, gapTimer := .stopped, assembler := .seek } }
      (frameOf ((l ++ [x]).take len.toNat))).settle := by
  have complete : ¬ (l ++ [x]).length < len.toNat + 2 := by simp; omega
  show execByteArrival x s = _
  unfold execByteArrival State.takeByte
  rw [hr]
  simp only [State.modLink, ha]
  rw [if_neg complete, State.checkFrame]
  exact congrArg (fun r : Raising => Host.Outcome.next r.settle) (if_pos crc)

/-- The batch that an ACK names is the first INFLIGHT one with its sequence. -/
theorem ChanDelivery.inflightWith_eq_some {d : ChanDelivery} {before after : List BatchId} {x : BatchId}
    (ho : d.inflightOrder = before ++ x :: after) (hs : (d.slot x).state = .inflight) (hq : (d.slot x).sequence = q)
    (hb : ∀ y ∈ before, ¬ ((d.slot y).state = .inflight ∧ (d.slot y).sequence = q)) :
    d.inflightWith q = some before.length := by
  have none_before : before.findIdx? (fun b => (d.slot b).state == .inflight && (d.slot b).sequence == q) = none :=
    List.findIdx?_eq_none_iff.2 fun y hy => by simpa using hb y hy
  rw [ChanDelivery.inflightWith, ho, List.findIdx?_append, none_before, List.findIdx?_cons, if_pos (by simp [hs, hq])]
  simp

theorem ChanDelivery.inflightWith_eq_none {d : ChanDelivery}
    (h : ∀ x ∈ d.inflightOrder, ¬ ((d.slot x).state = .inflight ∧ (d.slot x).sequence = q)) :
    d.inflightWith q = none := by
  simpa [ChanDelivery.inflightWith] using h

/-- Batches freed that an ACK names, before the drain is checked. -/
def State.acked (s : State) (c : ChanId) (freed rest : List BatchId) : State :=
  { s.modDeliv c fun d => { d.freeSlots freed with inflightOrder := rest } with
    resend := s.resend.filter fun e => !(e.1 == c && freed.contains e.2) }

theorem State.acknowledge_stale (h : (s.deliv c).inflightWith q = none) :
    s.acknowledge c q = (s, [.staleAck c q]) := by
  unfold State.acknowledge
  rw [h]

/-- An image of the record counts only at the record. -/
theorem State.modDeliv_congr {f g : ChanDelivery → ChanDelivery} (h : f (s.deliv c) = g (s.deliv c)) :
    s.modDeliv c f = s.modDeliv c g :=
  congrArg (fun d => { s with delivery := s.delivery.set c.val d }) h

theorem State.acknowledge_named {before after : List BatchId} {x : BatchId}
    (ho : (s.deliv c).inflightOrder = before ++ x :: after) (h : (s.deliv c).inflightWith q = some before.length) :
    s.acknowledge c q = (s.acked c (before ++ [x]) after).checkDrain c := by
  have taken : (s.deliv c).inflightOrder.take (before.length + 1) = before ++ [x] := by
    rw [ho]; simp [List.take_append]
  have left : (s.deliv c).inflightOrder.drop (before.length + 1) = after := by
    rw [ho]; simp [List.drop_append]
  unfold State.acknowledge State.acked
  rw [h]
  dsimp only
  rw [taken, State.modDeliv_congr (g := fun d => { d.freeSlots (before ++ [x]) with inflightOrder := after })
    (by rw [left])]
  rfl

/-- The state that an ACK of a batch leaves. -/
def State.ackSettled (s : State) (c : ChanId) (freed rest : List BatchId) : State :=
  ((s.acked c freed rest).checkDrain c).settle

variable (s c) (freed rest : List BatchId)

theorem State.acked_deliv : (s.acked c freed rest).deliv c =
    { (s.deliv c).freeSlots freed with inflightOrder := rest } :=
  s.modDeliv_deliv_same c fun d => { d.freeSlots freed with inflightOrder := rest }

theorem State.acked_drainWatch : ((s.acked c freed rest).deliv c).drainWatch = (s.deliv c).drainWatch := by
  obtain ⟨-, -, -, watch⟩ := (s.deliv c).freeSlots_rest freed
  rw [State.acked_deliv, watch]

theorem State.ackSettled_deliv : (s.ackSettled c freed rest).deliv c =
    { (s.deliv c).freeSlots freed with
      inflightOrder := rest
      drainWatch := (s.deliv c).drainWatch && !((s.acked c freed rest).deliv c).drained } := by
  rw [State.ackSettled, Raising.settle, State.raiseAll_deliv, State.checkDrain_deliv, State.acked_drainWatch,
    State.acked_deliv]

theorem State.ackSettled_slot (y : BatchId) : ((s.ackSettled c freed rest).deliv c).slot y =
    if y ∈ freed then .free else (s.deliv c).slot y := by
  rw [State.ackSettled_deliv]
  exact ChanDelivery.freeSlots_slot _ _ _

/-- The drain is complete when the batches that are left are neither READY nor INFLIGHT. -/
theorem State.acked_drained : ((s.acked c freed rest).deliv c).drained = true ↔
    (∀ y, (((s.ackSettled c freed rest).deliv c).slot y).state ≠ .ready) ∧
      ∀ y, (((s.ackSettled c freed rest).deliv c).slot y).state ≠ .inflight := by
  rw [ChanDelivery.drained_iff, ← forall_and, State.acked_deliv, State.ackSettled_deliv]
  rfl

/-- Of the other channels an ACK writes nothing. -/
theorem State.ackSettled_others {d : ChanId} (h : d ≠ c) :
    (s.ackSettled c freed rest).deliv d = s.deliv d ∧ (s.ackSettled c freed rest).chan d = s.chan d := by
  rw [State.ackSettled, Raising.settle, State.raiseAll_deliv, State.raiseAll_chan, State.checkDrain_deliv_ne _ _ _ h,
    State.checkDrain_chan_ne _ _ _ h]
  exact ⟨s.modDeliv_deliv_ne c d (fun e => { e.freeSlots freed with inflightOrder := rest }) h, rfl⟩

variable {s c freed rest}

theorem State.ackSettled_goesOn
    (h : ¬ ((s.deliv c).drainWatch = true ∧ ((s.acked c freed rest).deliv c).drained = true)) :
    s.ackSettled c freed rest = s.acked c freed rest := by
  rw [State.ackSettled, State.checkDrain_goesOn (by rwa [State.acked_drainWatch])]
  rfl

section
variable (hw : (s.deliv c).drainWatch = true) (hd : ((s.acked c freed rest).deliv c).drained = true)
  (hs : (s.chan c).state = .stopping)
include hw hd hs

/-- A stop by command ends with the last batch without a notice. -/
theorem State.ackSettled_byCommand (hc : (s.chan c).stopCause = some .command) :
    (s.ackSettled c freed rest).chan c = { s.chan c with
      state := .ready, stopCause := none, opSlot := (s.chan c).opSlot.finishOp .stop .ok } ∧
    (s.ackSettled c freed rest).arbiter = s.arbiter := by
  rw [State.ackSettled, State.checkDrain_complete ((s.acked_drainWatch ..).trans hw) hd,
    State.drainReport_byCommand ((s.acked c freed rest).modDeliv c _) c hs hc]
  refine ⟨?_, rfl⟩
  rw [Raising.settle, State.raiseAll_chan, State.modChan_chan_same]
  rfl

/-- A stop by a watch ends with the last batch, and CHANNEL_STOPPED is raised. -/
theorem State.ackSettled_byWatch (hc : (s.chan c).stopCause = some .watch) :
    (s.ackSettled c freed rest).chan c = { s.chan c with state := .ready, stopCause := none } ∧
    (s.ackSettled c freed rest).arbiter = (s.raise (.channelStopped c)).arbiter := by
  rw [State.ackSettled, State.checkDrain_complete ((s.acked_drainWatch ..).trans hw) hd,
    State.drainReport_byWatch ((s.acked c freed rest).modDeliv c _) c hs hc]
  refine ⟨?_, State.raiseAll_arbiter_congr [_] rfl⟩
  rw [Raising.settle, State.raiseAll_chan, State.modChan_chan_same]
  rfl

end

end

/-- Settles O15: the frame that the last byte completes is the ACK; the batches it names are freed, and the drain goes
on or ends by the cause of the stop. -/
theorem ackFreesTheBatchAndThoseBefore : Obligations.AckFreesTheBatchAndThoseBefore := by
  intro s b len l tag q c hr ha hl received crc content k
  let u : State := { s with link := k }
  have acked : exec (.byteArrival b) s = .next (u.acknowledge c q).settle := by
    rw [exec_byteArrival_complete hr ha hl crc, content]
    exact congrArg (fun r : Raising => Host.Outcome.next r.settle) (u.route_ack c tag q)
  refine ⟨fun stale => ?_, fun before after x ho hs hq hb => ?_⟩
  · rw [acked, State.acknowledge_stale (s := u) (ChanDelivery.inflightWith_eq_none stale)]
    rfl
  · let t : State := u.ackSettled c (before ++ [x]) after
    have named : exec (.byteArrival b) s = .next t := by
      rw [acked, State.acknowledge_named (s := u) ho (ChanDelivery.inflightWith_eq_some ho hs hq hb)]
      rfl
    have deliv : t.deliv c = _ := u.ackSettled_deliv c (before ++ [x]) after
    obtain ⟨counter, lost, ready, -⟩ := (u.deliv c).freeSlots_rest (before ++ [x])
    have complete := u.acked_drained c (before ++ [x]) after
    refine ⟨t, named, ?link, u.ackSettled_slot c (before ++ [x]) after, ?inflightOrder, ?readyOrder, ?seqCounter,
      ?pendingLost, ?resend, fun d hd => u.ackSettled_others c (before ++ [x]) after hd, ?coeffMem, ?pool, ?banks, ?lanes,
      ?engine, ?watches, fun goesOn => ?goesOn, fun drained => ?drained⟩
    case inflightOrder => rw [deliv]
    case readyOrder => rw [deliv]; exact ready
    case seqCounter => rw [deliv]; exact counter
    case pendingLost => rw [deliv]; exact lost
    case goesOn =>
      have undrained : ¬ ((u.deliv c).drainWatch = true ∧ ((u.acked c (before ++ [x]) after).deliv c).drained = true) :=
        fun h => goesOn ⟨h.1, complete.1 h.2⟩
      have same : t = u.acked c (before ++ [x]) after := State.ackSettled_goesOn undrained
      rw [same]
      exact ⟨u.acked_drainWatch c _ _, rfl, rfl⟩
    case drained =>
      obtain ⟨hw, left⟩ := drained
      have hd := complete.2 left
      refine ⟨?_, fun hs hc => State.ackSettled_byCommand hw hd hs hc, fun hs hc => State.ackSettled_byWatch hw hd hs hc⟩
      rw [deliv, hd]
      exact Bool.and_false _
    all_goals simp only [t, State.ackSettled, Raising.settle, State.raiseAll_link, State.raiseAll_resend,
      State.raiseAll_coeffMem, State.raiseAll_pool, State.raiseAll_banks, State.raiseAll_lanes, State.raiseAll_engine,
      State.raiseAll_watches, State.checkDrain_link, State.checkDrain_resend, State.checkDrain_coeffMem,
      State.checkDrain_pool, State.checkDrain_banks, State.checkDrain_lanes, State.checkDrain_engine,
      State.checkDrain_watches]
    all_goals rfl

end Sys2Proof.Machine
end

section
/-! PROOFS. The saturating counters and the notice queue at its capacity (O8). -/

namespace Sys2Proof.Machine

theorem inc16_toNat (x : Half) : (inc16 x).toNat = min 65535 (x.toNat + 1) := by
  unfold inc16
  split
  · next h => rw [h]; rfl
  · next h => bv_omega

theorem add8_toNat (x : Byte) (n : Nat) : (add8 x n).toNat = min 255 (x.toNat + n) := by
  rw [add8, BitVec.toNat_ofNat]
  exact Nat.mod_eq_of_lt (by omega)

theorem add8_one (x : Byte) : add8 x 1 = if x = 255 then 255 else x + 1 := by
  refine BitVec.eq_of_toNat_eq ?_
  rw [add8_toNat]
  split
  · next h => rw [h]; rfl
  · next h => bv_omega

/-- A notice finds room at the tail of its queue (R121). -/
theorem State.raise_queued {s : State} (n : Notice) (h : s.arbiter.notices.length < 16) :
    s.raise n = { s with arbiter := { s.arbiter with notices := s.arbiter.notices ++ [n] } } :=
  congrArg (fun a => { s with arbiter := a }) (if_pos h)

/-- A notice that finds the queue full is counted in its place (R121). -/
theorem State.raise_missed {s : State} (n : Notice) (h : 16 ≤ s.arbiter.notices.length) :
    s.raise n = { s with arbiter := { s.arbiter with missed := add8 s.arbiter.missed 1 } } :=
  congrArg (fun a => { s with arbiter := a }) (if_neg (not_lt.2 h))

/-- Settles O8: the two counters as numbers, and the two ways of a notice. -/
theorem countersSaturate : Obligations.CountersSaturate := by
  refine ⟨inc16_toNat, add8_toNat, fun s n => ⟨State.raise_queued n, fun full => ?_⟩, State.raiseAll_nil,
    State.raiseAll_cons⟩
  rw [State.raise_missed n full, add8_one]

end Sys2Proof.Machine
end

section
/-! PROOFS. TRANSMISSION_START (O37): the source that the arbiter chooses in each row of the table of R117, and what the
start from it writes. -/

namespace Sys2Proof.Machine

variable {s : State} {c : ChanId} {b : BatchId}

/-! ## Searches in the order of numbers -/

/-- The numbers listed before one are the smaller ones. -/
theorem finRange_split {n : Nat} (k : Fin n) :
    ∃ before after, List.finRange n = before ++ k :: after ∧ ∀ j ∈ before, j < k := by
  obtain ⟨before, after, e⟩ := List.append_of_mem (List.mem_finRange k)
  have rising : (before ++ k :: after).Pairwise (· < ·) := e ▸ List.pairwise_lt_finRange n
  exact ⟨before, after, e, fun j hj => (List.pairwise_append.1 rising).2.2 j hj k List.mem_cons_self⟩

theorem finRange_find? {n : Nat} {p : Fin n → Bool} {k : Fin n} (here : p k = true) (below : ∀ j < k, p j = false) :
    (List.finRange n).find? p = some k := by
  obtain ⟨before, after, e, smaller⟩ := finRange_split k
  exact List.find?_eq_some_iff_append.2 ⟨here, before, after, e, fun j hj => by simp [below j (smaller j hj)]⟩

theorem finRange_findSome? {n : Nat} {α : Type} {f : Fin n → Option α} {k : Fin n} {x : α} (here : f k = some x)
    (below : ∀ j < k, f j = none) : (List.finRange n).findSome? f = some x := by
  obtain ⟨before, after, e, smaller⟩ := finRange_split k
  exact List.findSome?_eq_some_iff.2 ⟨before, k, after, e, here, fun j hj => below j (smaller j hj)⟩

/-! ## What waits (R100, R120, R124) -/

theorem OpSlot.isUnreported_iff {o : OpSlot} : o.isUnreported = true ↔ ∃ op tag st, o = .unreported op tag st := by
  cases o <;> simp [OpSlot.isUnreported]

theorem OpSlot.isUnreported_eq_false {o : OpSlot} (h : ∀ op tag st, o ≠ .unreported op tag st) :
    o.isUnreported = false :=
  Bool.eq_false_iff.2 fun hu => by
    obtain ⟨op, tag, st, e⟩ := OpSlot.isUnreported_iff.1 hu
    exact h op tag st e

theorem State.completionWaiting_eq_some {op : Operation} {tag : Byte} {st : DoneStatus}
    (here : (s.chan c).opSlot = .unreported op tag st)
    (below : ∀ j < c, ∀ op tag st, (s.chan j).opSlot ≠ .unreported op tag st) : s.completionWaiting = some c :=
  finRange_find? (OpSlot.isUnreported_iff.2 ⟨op, tag, st, here⟩) fun j hj => OpSlot.isUnreported_eq_false (below j hj)

theorem State.completionWaiting_eq_none (h : ∀ j op tag st, (s.chan j).opSlot ≠ .unreported op tag st) :
    s.completionWaiting = none :=
  List.find?_eq_none.2 fun j _ => by simp [OpSlot.isUnreported_eq_false (h j)]

theorem State.eligible_iff : s.eligible c = true ↔ (s.deliv c).readyOrder ≠ [] ∧
    ((s.chan c).config.autoAck = true ∨ (s.deliv c).count .inflight < (s.chan c).config.window) := by
  simp [State.eligible]

/-- The channel that a new batch is taken from: the first eligible one of its class, no class above having one. -/
theorem State.newBatch_of_first {k : ClassId} {before after : List ChanId} {rest : List BatchId}
    (list : s.arbiter.list k = before ++ c :: after) (he : s.eligible c = true)
    (first : ∀ j ∈ before, ¬ s.eligible j = true)
    (above : ∀ i < k, ∀ j ∈ s.arbiter.list i, ¬ s.eligible j = true)
    (hb : (s.deliv c).readyOrder = b :: rest) : s.newBatch = some (c, b) := by
  have found : (s.arbiter.list k).find? s.eligible = some c :=
    List.find?_eq_some_iff_append.2 ⟨he, before, after, list, fun j hj => by simpa using first j hj⟩
  have channel : s.batchChannel = some c :=
    finRange_findSome? found fun i hi => List.find?_eq_none.2 fun j hj => above i hi j hj
  rw [State.newBatch, channel, Option.bind_some, hb]
  rfl

/-! ## The choice, source by source (R117) -/

theorem State.choice_greeting (h : s.link.greeting = true) : s.choice = some .greeting := if_pos h

section
variable (hg : s.link.greeting = false)
include hg

theorem State.choice_reply {r : Reply} {rest : List Reply} (h : s.link.replies = r :: rest) :
    s.choice = some .reply := by
  simp [State.choice, hg, h]

variable (hr : s.link.replies = [])
include hr

theorem State.choice_operation (h : s.completionWaiting = some c) : s.choice = some (.operation c) := by
  simp [State.choice, hg, hr, h]

variable (hc : s.completionWaiting = none)
include hc

theorem State.choice_notice {n : Notice} {rest : List Notice} (h : s.arbiter.notices = n :: rest) :
    s.choice = some .notice := by
  simp [State.choice, hg, hr, hc, h]

variable (hn : s.arbiter.notices = [])
include hn

theorem State.choice_resend {rest : List (ChanId × BatchId)} (h : s.resend = (c, b) :: rest) :
    s.choice = some (.resend c b) := by
  simp [State.choice, hg, hr, hc, hn, h]

theorem State.choice_batch (hs : s.resend = []) (h : s.newBatch = some (c, b)) : s.choice = some (.batch c b) := by
  simp [State.choice, hg, hr, hc, hn, hs, h]

end

/-! ## The starts (R101, R107, R117, R122) -/

/-- A free transmitter starts from the source chosen. -/
theorem exec_transmissionStart {src : Source} (hl : s.arbiter.transmission = none) (hc : s.choice = some src) :
    exec .transmissionStart s = .next (s.startFrom src) := by
  show execTransmissionStart s = _
  rw [execTransmissionStart, hl, hc]

theorem State.startFrom_reply {r : Reply} {rest : List Reply} (h : s.link.replies = r :: rest) :
    s.startFrom .reply = s.transmit .reply r.frame := by
  rw [State.startFrom, h]

theorem State.startNotice_head {n : Notice} {rest : List Notice} (h : s.arbiter.notices = n :: rest) :
    s.startNotice = { s with arbiter := { s.arbiter with
      notices := rest, missed := 0, transmission := some ⟨.notice, n.frame s.arbiter.missed⟩ } } := by
  unfold State.startNotice
  rw [h]
  rfl

theorem State.startResend_head {rest : List (ChanId × BatchId)} (h : s.resend = (c, b) :: rest) :
    s.startResend c b = { s with
      resend := rest
      delivery := s.delivery.set c.val ((s.deliv c).modSlot b fun t => { t with beingSent := true })
      channels := s.channels.set c.val { s.chan c with
        counters := { (s.chan c).counters with retransmissions := inc16 (s.chan c).counters.retransmissions } }
      arbiter := { s.arbiter with
        transmission := some ⟨.resend c b, ((s.deliv c).slot b).frame c true⟩ } } := by
  unfold State.startResend
  rw [h]
  rfl

/-- A channel that its list holds once, moved to the tail. -/
theorem Arbiter.toTail_split {a : Arbiter} {k : ClassId} {before after : List ChanId}
    (list : a.list k = before ++ c :: after) (hb : c ∉ before) (ha : c ∉ after) :
    a.toTail c k = { a with rotation := a.rotation.set k.val (before ++ after ++ [c]) } := by
  have kept {l : List ChanId} (h : c ∉ l) : others c l = l :=
    List.filter_eq_self.2 fun j hj => by simpa using fun e : j = c => h (e ▸ hj)
  have left : others c (a.list k) = before ++ after := by
    rw [list, others, List.filter_append, List.filter_cons_of_neg (by simp)]
    exact congrArg₂ (· ++ ·) (kept hb) (kept ha)
  rw [← left]
  rfl

/-- The batch that leaves the ready order, in each mode (R101, R109). -/
theorem ChanDelivery.send_head {d : ChanDelivery} {rest : List BatchId} (h : d.readyOrder = b :: rest)
    (autoAck : Bool) :
    d.send b autoAck =
      if autoAck then
        { d with slots := d.slots.set b.val { d.slot b with beingSent := true }, readyOrder := rest }
      else
        { d with
          slots := d.slots.set b.val { d.slot b with
            beingSent := true, state := .inflight, retry := 0, timer := .stopped }
          readyOrder := rest
          inflightOrder := d.inflightOrder ++ [b] } := by
  unfold ChanDelivery.send
  rw [h]
  rfl

theorem State.startBatch_eq (s : State) (c : ChanId) (b : BatchId) : s.startBatch c b = { s with
    delivery := s.delivery.set c.val ((s.deliv c).send b (s.chan c).config.autoAck)
    arbiter := { s.arbiter.toTail c (s.chan c).config.cls with
      transmission := some ⟨.batch c b, ((s.deliv c).slot b).frame c false⟩ } } := rfl

/-- Settles O37: the choice in each row of the table, and the start from its source. -/
theorem transmissionStartTakesTheFirstSource : Obligations.TransmissionStartTakesTheFirstSource := by
  intro s hl k a eligible noCompletion batch
  refine ⟨fun hg => ?_, fun r rest hg hr => ?_, fun c op tag st hg hr hc below => ?_, fun n rest hg hr hc hn => ?_,
    fun c b rest hg hr hc hn hs => ?_, fun c b rest before after hg hr hc hn hs list first once he above hb => ?_⟩
  · rw [exec_transmissionStart hl (State.choice_greeting hg)]
    rfl
  · rw [exec_transmissionStart hl (State.choice_reply hg hr), State.startFrom_reply hr]
    rfl
  · rw [exec_transmissionStart hl (State.choice_operation hg hr (State.completionWaiting_eq_some hc below)),
      State.startFrom, hc]
    rfl
  · rw [exec_transmissionStart hl (State.choice_notice hg hr (State.completionWaiting_eq_none hc) hn),
      State.startFrom, State.startNotice_head hn]
    rfl
  · rw [exec_transmissionStart hl (State.choice_resend hg hr (State.completionWaiting_eq_none hc) hn hs),
      State.startFrom, State.startResend_head hs]
    rfl
  · have chosen : s.newBatch = some (c, b) := State.newBatch_of_first list (State.eligible_iff.2 he)
      (fun x hx h => (first x hx).2 (State.eligible_iff.1 h))
      (fun cls hcls x hx h => above cls hcls x hx (State.eligible_iff.1 h)) hb
    have notBefore : c ∉ before := fun hc => (first c hc).1 rfl
    rw [exec_transmissionStart hl (State.choice_batch hg hr (State.completionWaiting_eq_none hc) hn hs chosen),
      State.startFrom, State.startBatch_eq, Arbiter.toTail_split list notBefore once, ChanDelivery.send_head hb]
    rfl

end Sys2Proof.Machine
end

section
/-! PROOFS. SEND_COMPLETION (O38): the claim that each kind of frame makes. -/

namespace Sys2Proof.Machine

variable {s : State} {c : ChanId} {b : BatchId}

/-- The transmitter is freed, and the claim of the frame's kind is made (R116). -/
theorem exec_sendCompletion {src : Source} {frame : Frame} (h : s.arbiter.transmission = some ⟨src, frame⟩) :
    exec .sendCompletion s = .next (s.freeTransmitter.sent src).settle := by
  show execSendCompletion s = _
  rw [execSendCompletion, h]

/-! ## A reply sent (R119, R140, R141) -/

theorem State.replySent_head {r : Reply} {rest : List Reply} (h : s.link.replies = r :: rest) :
    s.replySent = (s.modLink fun k => { k with replies := rest }).replyEffect r := by
  unfold State.replySent
  rw [h]

/-- Only a LINK_SET and a DEVICE_RESET that were carried out have an effect. -/
theorem State.replyEffect_none {r : Reply} (h : r.type ≠ 0x02 ∧ r.type ≠ 0x03 ∨ r.status ≠ .ok) :
    s.replyEffect r = s := by
  have other {x : Byte} (hx : x = 0x02 ∨ x = 0x03) : ¬ (r.type = x ∧ r.status = .ok) := by
    rintro ⟨rfl, ok⟩
    exact h.elim (fun ⟨h2, h3⟩ => hx.elim h2 h3) fun hn => hn ok
  exact (if_neg (other (.inr rfl))).trans (if_neg (other (.inl rfl)))

/-- A LINK_SET that was carried out puts its two values in force. -/
theorem State.replyEffect_linkSet {r : Reply} {rate : Fin 6} {gap : Byte} (ht : r.type = 0x03) (hs : r.status = .ok)
    (hb : r.body = [natByte rate.val, gap]) : s.replyEffect r = s.modLink fun k => k.applyRate rate gap.toNat := by
  have index : indexOf 6 (byteAt r.body 0) = some rate := by
    rw [hb]; exact indexOf_natByte rate (by decide)
  have second : byteAt r.body 1 = gap := by rw [hb]; rfl
  unfold State.replyEffect
  rw [if_pos ⟨ht, hs⟩, index, second]

variable {k : Link} {rate : Fin 6}

theorem Link.applyRate_same (h : k.rate = rate) (gap : Nat) : k.applyRate rate gap = { k with gapTimeout := gap } := by
  subst h
  simp [Link.applyRate]

theorem Link.applyRate_idle (h : k.rate ≠ rate) (ha : k.assembler = .seek) (gap : Nat) :
    k.applyRate rate gap = { k with rate := rate, gapTimeout := gap, rxChar := none } := by
  unfold Link.applyRate
  rw [if_neg h, ha]

/-- A new rate discards the frame in assembly, whatever of it has come. -/
theorem Link.applyRate_cuts (h : k.rate ≠ rate) (ha : k.assembler ≠ .seek) (gap : Nat) :
    k.applyRate rate gap = { k.truncate with rate := rate, gapTimeout := gap, rxChar := none } := by
  unfold Link.applyRate
  rw [if_neg h]
  cases e : k.assembler with
  | seek => exact absurd e ha
  | length => rfl
  | body len l => rfl

/-- The send completion of a LINK_SET reply of status OK. -/
theorem exec_sendCompletion_linkSet {frame : Frame} {r : Reply} {rest : List Reply} {gap : Byte}
    (h : s.arbiter.transmission = some ⟨.reply, frame⟩) (hr : s.link.replies = r :: rest) (ht : r.type = 0x03)
    (hs : r.status = .ok) (hb : r.body = [natByte rate.val, gap]) :
    exec .sendCompletion s = .next (s.freeTransmitter.modLink fun k =>
      Link.applyRate { k with replies := rest } rate gap.toNat) := by
  have sent : s.freeTransmitter.replySent = _ := State.replySent_head hr
  rw [exec_sendCompletion h, State.sent, sent, State.replyEffect_linkSet ht hs hb]
  rfl

/-! ## A batch sent (R102, R103, R110) -/

theorem exec_sendCompletion_batch {frame : Frame} (h : s.arbiter.transmission = some ⟨.batch c b, frame⟩ ∨
    s.arbiter.transmission = some ⟨.resend c b, frame⟩) :
    exec .sendCompletion s = .next (s.freeTransmitter.batchSent c b).settle :=
  h.elim exec_sendCompletion exec_sendCompletion

theorem State.batchSent_gone (h : ((s.deliv c).slot b).beingSent = false) : s.batchSent c b = (s, []) :=
  if_neg (by rw [h]; decide)

theorem State.batchSent_inflight (h : ((s.deliv c).slot b).beingSent = true)
    (hb : ((s.deliv c).slot b).state = .inflight) : s.batchSent c b = (s.startTimer c b, []) := by
  unfold State.batchSent
  dsimp only
  rw [if_pos h, hb]

/-- The state that a batch sent in auto-acknowledge mode leaves, before its drain is checked. -/
def State.batchFreed (s : State) (c : ChanId) (b : BatchId) : State := s.modDeliv c fun d => d.modSlot b fun _ => .free

/-- The drain is complete without the batch exactly when no other is READY or INFLIGHT. -/
theorem State.batchFreed_drained : ((s.batchFreed c b).deliv c).drained = true ↔
    ∀ x, x ≠ b → ((s.deliv c).slot x).state ≠ .ready ∧ ((s.deliv c).slot x).state ≠ .inflight := by
  rw [ChanDelivery.drained_iff]
  refine forall_congr' fun x => ?_
  rw [State.batchFreed, State.modDeliv_deliv_same, ChanDelivery.modSlot_slot]
  split
  · next hx => simp [hx, BatchSlot.free]
  · next hx => simp [hx]

theorem State.batchFreed_drainWatch : ((s.batchFreed c b).deliv c).drainWatch = (s.deliv c).drainWatch := by
  simp [State.batchFreed]

section
variable (h : ((s.deliv c).slot b).beingSent = true) (hb : ((s.deliv c).slot b).state = .ready)
include h hb

theorem State.batchSent_ready : s.batchSent c b = (s.batchFreed c b).checkDrain c := by
  unfold State.batchSent
  dsimp only
  rw [if_pos h, hb]
  rfl

theorem State.batchSent_goesOn (goesOn : (s.deliv c).drainWatch = false ∨
    ¬ ∀ x, x ≠ b → ((s.deliv c).slot x).state ≠ .ready ∧ ((s.deliv c).slot x).state ≠ .inflight) :
    s.batchSent c b = (s.batchFreed c b, []) := by
  rw [State.batchSent_ready h hb, State.checkDrain_goesOn]
  rw [State.batchFreed_drainWatch, State.batchFreed_drained]
  rintro ⟨hw, last⟩
  exact goesOn.elim (fun off => nomatch off.symm.trans hw) fun hn => hn last

/-- The last batch sent ends the drain, which is reported and watched no longer. -/
theorem State.batchSent_drains (hw : (s.deliv c).drainWatch = true)
    (last : ∀ x, x ≠ b → ((s.deliv c).slot x).state ≠ .ready ∧ ((s.deliv c).slot x).state ≠ .inflight) :
    s.batchSent c b =
      (s.modDeliv c fun d => { d.modSlot b (fun _ => .free) with drainWatch := false }).drainReport c := by
  rw [State.batchSent_ready h hb, State.checkDrain_complete (State.batchFreed_drainWatch.trans hw)
    (State.batchFreed_drained.2 last)]
  simp [State.batchFreed, State.modDeliv]

end

/-- Settles O38: the claim of each kind of frame; a reply by its effect on the link, a batch by its state and its
drain. -/
theorem sendCompletionSettlesTheFrame : Obligations.SendCompletionSettlesTheFrame := by
  intro s frame free
  refine ⟨fun h => exec_sendCompletion h, fun h => exec_sendCompletion h, fun r rest h hr plain => ?plainReply,
    fun r rest rate gap h hr ht hs hb => ?linkSet, fun c op tag st h ho => ?operation, fun c b h => ?batch⟩
  case plainReply =>
    have sent : s.freeTransmitter.replySent = _ := State.replySent_head hr
    rw [exec_sendCompletion h, State.sent, sent, State.replyEffect_none plain]
    rfl
  case linkSet =>
    have effect := exec_sendCompletion_linkSet h hr ht hs hb
    let k : Link := { s.link with replies := rest }
    have written {k' : Link} (applied : k.applyRate rate gap.toNat = k') :
        exec .sendCompletion s = .next { s with arbiter := free, link := k' } :=
      applied ▸ effect
    exact ⟨fun same => written (Link.applyRate_same (k := k) same _),
      fun new idle => written (Link.applyRate_idle (k := k) new idle _),
      fun new cut => written (Link.applyRate_cuts (k := k) new cut _)⟩
  case operation =>
    have reported : (s.chan c).opSlot.isUnreported = true := by rw [ho]; rfl
    have claim : (if (s.chan c).opSlot.isUnreported then .none else (s.chan c).opSlot) = OpSlot.none := if_pos reported
    rw [exec_sendCompletion h, ← claim]
    rfl
  case batch =>
    intro d t
    rw [exec_sendCompletion_batch h]
    refine ⟨fun gone => ?_, fun hs hb => ?_, fun hs hb goesOn => ?_, fun cause hs hb hw last hst hcause => ?_⟩
    · rw [State.batchSent_gone (s := s.freeTransmitter) gone]
      rfl
    · rw [State.batchSent_inflight (s := s.freeTransmitter) hs hb]
      rfl
    · rw [State.batchSent_goesOn (s := s.freeTransmitter) hs hb goesOn]
      rfl
    · rw [State.batchSent_drains (s := s.freeTransmitter) hs hb hw last]
      cases cause with
      | command =>
        rw [State.drainReport_byCommand (s.freeTransmitter.modDeliv c _) c hst hcause]
        rfl
      | watch =>
        rw [State.drainReport_byWatch (s.freeTransmitter.modDeliv c _) c hst hcause]
        rfl

end Sys2Proof.Machine
end

section
/-! PROOFS. The state after reset and the laws it obeys (O60); the power and the pin reset (O49). -/

namespace Sys2Proof.Machine

/-! ## The records after reset (R25, R44, R61, R93, R114) -/

theorem State.reset_chan (c : ChanId) : State.reset.chan c = Channel.reset := State.reset.resetBlocks_chan c

theorem State.reset_bank (b : BankId) : State.reset.bank b = Bank.free := State.reset.resetBlocks_bank b

theorem State.reset_lane (l : LaneId) : State.reset.lane l = Lane.reset := State.reset.resetBlocks_lane l

theorem State.reset_watch (w : WatchId) : State.reset.watch w = Watch.reset := State.reset.resetBlocks_watch w

theorem State.reset_deliv (c : ChanId) : State.reset.deliv c = ChanDelivery.reset := State.reset.resetBlocks_deliv c

theorem State.reset_ring (c : ChanId) : State.reset.ring c = [] := by
  simp [State.ring, State.reset]

theorem ChanDelivery.reset_slot (b : BatchId) : ChanDelivery.reset.slot b = BatchSlot.free := by
  simp [ChanDelivery.reset, ChanDelivery.slot]

/-! ## The laws after reset -/

theorem State.reset_queuesBounded : State.reset.QueuesBounded where
  inbound := Nat.zero_le _
  replies := Nat.zero_le _
  notices := Nat.zero_le _
  fifos l := by rw [State.reset_lane]; exact Nat.zero_le _

theorem State.reset_linkLaw : State.reset.LinkLaw where
  gap := by decide
  values _ hr := absurd hr List.not_mem_nil
  timer := iff_of_true rfl rfl
  body _ _ h := nomatch h

theorem State.reset_runLaw : State.reset.RunLaw :=
  State.runLaw_iff.2 ⟨fun c => by rw [State.reset_chan]; exact Channel.reset_ranges,
    fun c => by rw [State.reset_ring]; exact Nat.zero_le _,
    fun c b => by rw [State.reset_deliv, ChanDelivery.reset_retry]; exact Nat.zero_le _,
    fun w => by rw [State.reset_watch]; exact Watch.reset_law⟩

theorem State.reset_channelLaw : State.reset.ChannelLaw where
  records c := by rw [State.reset_chan]; exact Channel.reset_law
  requests := ⟨List.nodup_nil, nofun⟩

theorem State.reset_laneLaw : State.reset.LaneLaw := fun l => by
  rw [State.reset_lane]; exact Lane.reset_law

/-- Every channel is of class 3, the class whose list holds every channel in order (R126). -/
theorem State.reset_rotationLaw : State.reset.RotationLaw := by
  have class3 : State.reset.classOf = fun _ => 3 := funext fun c => by
    rw [State.classOf, State.reset_chan]; rfl
  rw [State.rotationLaw_iff, class3]
  show Arbiter.reset.Sorts fun _ => 3
  unfold Arbiter.Sorts Lists
  decide

/-! ## The obligations -/

/-- Settles O60, law by law. -/
theorem resetObeysEveryLaw : Obligations.ResetObeysEveryLaw :=
  ⟨State.reset_queuesBounded, State.reset_linkLaw, reset_coeffMem_wf, State.reset_runLaw,
    State.reset.resetBlocks_pageLaw, State.reset_channelLaw, State.reset.resetBlocks_useLaw,
    State.reset_laneLaw, State.reset_rotationLaw, State.reset.resetBlocks_windowLaw⟩

/-- Settles O49: the resets by their definition, the reset values record by record. -/
theorem powerAndPinResetGiveTheResetValues : Obligations.PowerAndPinResetGiveTheResetValues := by
  have batches (c : ChanId) (b : BatchId) : (State.reset.deliv c).slot b = BatchSlot.free := by
    rw [State.reset_deliv, ChanDelivery.reset_slot]
  refine ⟨fun s space => ⟨rfl, rfl⟩, rfl, State.reset_chan, State.reset_bank, rfl, State.reset_lane, rfl, rfl,
    State.reset_watch, fun c => ⟨fun b => ?_, ?_⟩, rfl, rfl, rfl, rfl, rfl, rfl, rfl, rfl⟩
  · rw [batches]; exact ⟨rfl, rfl, rfl⟩
  · rw [State.reset_deliv]; exact ⟨rfl, rfl, rfl, rfl, rfl⟩

end Sys2Proof.Machine
end

section
/-! PROOFS. LINK_RESET (O50): the frame in progress abandoned and settled by its kind, and the link controller as the
link reset leaves it. -/

namespace Sys2Proof.Machine

variable {s : State} {c : ChanId} {b : BatchId}

/-! ## The frame in progress abandoned (R112, R125) -/

theorem State.abandonTransmission_none (h : s.arbiter.transmission = none) : s.abandonTransmission = s := by
  unfold State.abandonTransmission
  rw [h]

theorem State.abandonTransmission_some {source : Source} {frame : Frame}
    (h : s.arbiter.transmission = some ⟨source, frame⟩) :
    s.abandonTransmission = s.freeTransmitter.abandon ⟨source, frame⟩ := by
  unfold State.abandonTransmission
  rw [h]

/-- A frame that carries a batch, sent for the first time or again. -/
theorem State.abandonTransmission_batch {frame : Frame} (h : s.arbiter.transmission = some ⟨.batch c b, frame⟩ ∨
    s.arbiter.transmission = some ⟨.resend c b, frame⟩) :
    s.abandonTransmission = s.freeTransmitter.batchAbandoned c b :=
  h.elim State.abandonTransmission_some State.abandonTransmission_some

/-- A batch that is gone has no being-sent mark (R103). -/
theorem State.batchAbandoned_gone (h : ((s.deliv c).slot b).beingSent = false) : s.batchAbandoned c b = s :=
  if_neg (by rw [h]; decide)

theorem State.batchAbandoned_inflight (h : ((s.deliv c).slot b).beingSent = true)
    (hb : ((s.deliv c).slot b).state = .inflight) : s.batchAbandoned c b = s.startTimer c b := by
  unfold State.batchAbandoned
  dsimp only
  rw [if_pos h, hb]

theorem State.batchAbandoned_ready (h : ((s.deliv c).slot b).beingSent = true)
    (hb : ((s.deliv c).slot b).state = .ready) :
    s.batchAbandoned c b = s.modDeliv c fun d =>
      { d.modSlot b (fun t => { t with beingSent := false }) with readyOrder := b :: d.readyOrder } := by
  unfold State.batchAbandoned
  dsimp only
  rw [if_pos h, hb]

theorem State.batchAbandoned_frame (s : State) (c : ChanId) (b : BatchId) :
    s.batchAbandoned c b = { s with
      delivery := (s.batchAbandoned c b).delivery, arbiter := (s.batchAbandoned c b).arbiter } := by
  unfold State.batchAbandoned
  dsimp only
  repeat' split
  all_goals rfl

/-- The abandonment changes the delivery unit and the arbiter alone. -/
theorem State.abandonTransmission_frame (s : State) : s.abandonTransmission = { s with
    delivery := s.abandonTransmission.delivery, arbiter := s.abandonTransmission.arbiter } := by
  unfold State.abandonTransmission
  split
  · rfl
  · next t _ =>
    obtain ⟨source, frame⟩ := t
    cases source with
    | resend c b => exact State.batchAbandoned_frame s.freeTransmitter c b
    | batch c b => exact State.batchAbandoned_frame s.freeTransmitter c b
    | _ => rfl

/-! ## The link reset (R146, R147) -/

/-- The link controller after a link reset (R146). -/
def Link.afterBreak (k : Link) : Link :=
  { k with
    assembler := .seek, gapTimer := .stopped, inbound := [], replies := [], rxDiscards := 0,
    cause := .link, greeting := true, detector := .broken }

theorem State.performLinkReset_eq (s : State) :
    s.performLinkReset = s.abandonTransmission.modLink Link.afterBreak := rfl

theorem exec_linkReset (hd : s.link.detector = .space) (hp : s.link.resetPending = false) :
    exec .linkReset s = .next (s.abandonTransmission.modLink Link.afterBreak) := by
  show execLinkReset s = _
  rw [execLinkReset, hd, hp]
  rfl

/-- With a device reset pending, what the abandonment leaves is reset with the blocks (R147). -/
theorem exec_linkReset_pending (hd : s.link.detector = .space) (hp : s.link.resetPending = true) :
    exec .linkReset s = .next s.performLinkReset.performDeviceReset := by
  show execLinkReset s = _
  rw [execLinkReset, hd, hp]
  rfl

/-- Settles O50: with no device reset pending, by the kind of the frame in progress. -/
theorem linkResetAbandonsTheFrameInProgress : Obligations.LinkResetAbandonsTheFrameInProgress := by
  intro s hd k free
  refine ⟨fun hp => ?pending, fun hp => ⟨fun idle => ?none, fun frame source h kept => ?kept, fun frame h => ?notice,
    fun frame c b h => ?batch⟩⟩
  case pending =>
    rw [exec_linkReset_pending hd hp, State.performLinkReset_eq, State.abandonTransmission_frame]
    rfl
  all_goals rw [exec_linkReset hd hp]
  case none =>
    rw [State.abandonTransmission_none idle]
    rfl
  case kept =>
    rw [State.abandonTransmission_some h]
    rcases kept with rfl | rfl | ⟨c, rfl⟩ <;> rfl
  case notice =>
    rw [State.abandonTransmission_some h]
    rfl
  case batch =>
    rw [State.abandonTransmission_batch h]
    refine ⟨fun gone => ?_, fun hs hb => ?_, fun hs hb => ?_⟩
    · rw [State.batchAbandoned_gone (s := s.freeTransmitter) gone]
      rfl
    · rw [State.batchAbandoned_inflight (s := s.freeTransmitter) hs hb]
      rfl
    · rw [State.batchAbandoned_ready (s := s.freeTransmitter) hs hb]
      rfl

end Sys2Proof.Machine
end

section
/-! PROOFS. The receiver of the host link: a good byte row by row of the assembler's table (O13), the last byte of a
frame (O14), and the level of HRX, framing errors and the gap timer (O16). -/

namespace Sys2Proof.Machine

/-! ## A good byte (R128, R129) -/

section
variable {s : State} {b : Byte}

/-- The character that ends is no longer sampled. -/
def Link.charEnds (k : Link) : Link := { k with rxChar := none }

/-- A good byte at a receiver that is ready goes to the assembler. -/
theorem exec_byteArrival_taken {t : State} (hr : s.link.receiver = .readyForStart)
    (h : (s.modLink Link.charEnds).takeByte b = (t, [])) : exec (.byteArrival b) s = .next t := by
  show execByteArrival b s = _
  rw [execByteArrival, hr]
  exact congrArg (fun r : Raising => Host.Outcome.next r.settle) h

theorem State.takeByte_sync (ha : s.link.assembler = .seek) (hb : b = 0xA7) :
    s.takeByte b = (s.modLink fun k => { k.startGap with assembler := .length }, []) := by
  unfold State.takeByte
  rw [ha]
  exact if_pos hb

theorem State.takeByte_dropped (ha : s.link.assembler = .seek) (hb : b ≠ 0xA7) : s.takeByte b = (s, []) := by
  unfold State.takeByte
  rw [ha]
  exact if_neg hb

theorem State.takeByte_len (ha : s.link.assembler = .length) (hb : 2 ≤ b.toNat ∧ b.toNat ≤ 250) :
    s.takeByte b = (s.modLink fun k => { k.startGap with assembler := .body b [] }, []) := by
  unfold State.takeByte
  rw [ha]
  exact if_pos hb

theorem State.takeByte_badLen (ha : s.link.assembler = .length) (hb : b.toNat < 2 ∨ 250 < b.toNat) :
    s.takeByte b = (s.modLink Link.truncate, []) := by
  unfold State.takeByte
  rw [ha]
  exact if_neg (by omega)

variable {len : Byte} {l : List Byte}

theorem State.takeByte_body (ha : s.link.assembler = .body len l) (short : l.length + 1 < len.toNat + 2) :
    s.takeByte b = (s.modLink fun k => { k.startGap with assembler := .body len (l ++ [b]) }, []) := by
  unfold State.takeByte
  rw [ha]
  exact if_pos (by rw [List.length_append]; exact short)

/-- The byte that completes a frame stops the gap timer and has the frame checked. -/
theorem State.takeByte_complete (ha : s.link.assembler = .body len l) (complete : l.length + 1 = len.toNat + 2) :
    s.takeByte b = (s.modLink Link.toSeek).checkFrame len (l ++ [b]) := by
  unfold State.takeByte
  rw [ha]
  exact if_neg (by rw [List.length_append, List.length_singleton, complete]; exact Nat.lt_irrefl _)

end

/-- Settles O13: the first five rows of the assembler's table. -/
theorem assemblerFollowsItsTable : Obligations.AssemblerFollowsItsTable := fun _ _ hr =>
  ⟨fun ha sync => exec_byteArrival_taken hr (State.takeByte_sync ha sync),
    fun ha other => exec_byteArrival_taken hr (State.takeByte_dropped ha other),
    fun ha legal => exec_byteArrival_taken hr (State.takeByte_len ha legal),
    fun ha illegal => exec_byteArrival_taken hr (State.takeByte_badLen ha illegal),
    fun _ _ ha short => exec_byteArrival_taken hr (State.takeByte_body ha short)⟩

/-! ## A complete frame (R133 to R135) -/

/-- A frame whose CRC differs is discarded and counted (R133). -/
theorem State.checkFrame_bad {s : State} {len : Byte} {body : List Byte}
    (h : crc16 (len :: body.take len.toNat) ≠ halfAt body len.toNat) :
    s.checkFrame len body = (s.modLink fun k =>
      { k.discardFrame with counters := { k.counters with crcErrors := inc16 k.counters.crcErrors } }, []) :=
  if_neg h

theorem State.route_command {s : State} {f : Frame} (h : f.type ≠ FrameType.ack) :
    s.route f = (s.modLink fun k => k.enqueue f, []) := if_neg h

theorem Link.enqueue_room {k : Link} (f : Frame) (h : k.inbound.length < 4) :
    k.enqueue f = { k with inbound := k.inbound ++ [f] } := if_pos h

theorem Link.enqueue_full {k : Link} (f : Frame) (h : 4 ≤ k.inbound.length) : k.enqueue f =
    { k.discardFrame with counters := { k.counters with queueFull := inc16 k.counters.queueFull } } :=
  if_neg (Nat.not_lt.2 h)

/-- The ways in which an ACK is malformed (R134). -/
theorem ackOperands_eq_none {p : List Byte} : ackOperands p = none ↔
    p.length ≠ 4 ∨ 16 ≤ (byteAt p 0).toNat ∨ byteAt p 2 ≠ 0 ∨ byteAt p 3 ≠ 0 := by
  unfold ackOperands
  split
  · next h =>
    simp only [Bool.and_eq_true, beq_iff_eq] at h
    obtain ⟨⟨length, second⟩, third⟩ := h
    rw [Option.map_eq_none_iff, indexOf_eq_none]
    simp [length, second, third]
  · next h =>
    simp only [Bool.and_eq_true, beq_iff_eq] at h
    refine iff_of_true rfl ?_
    tauto

theorem State.route_malformed {s : State} {f : Frame} (ht : f.type = FrameType.ack)
    (h : ackOperands f.payload = none) :
    s.route f = (s.modLink fun k =>
      { k with counters := { k.counters with malformedAcks := inc16 k.counters.malformedAcks } }, []) := by
  unfold State.route
  rw [if_pos ht, h]

section
variable {s t : State} {x len : Byte} {l : List Byte} (hr : s.link.receiver = .readyForStart)
  (ha : s.link.assembler = .body len l) (complete : l.length + 1 = len.toNat + 2)
include hr ha complete

/-- The last byte of a frame whose CRC differs. -/
theorem exec_byteArrival_badCrc (crc : crc16 (len :: (l ++ [x]).take len.toNat) ≠ halfAt (l ++ [x]) len.toNat) :
    exec (.byteArrival x) s = .next ((s.modLink fun k => k.charEnds.toSeek).modLink fun k =>
      { k.discardFrame with counters := { k.counters with crcErrors := inc16 k.counters.crcErrors } }) :=
  exec_byteArrival_taken hr
    ((State.takeByte_complete (s := s.modLink Link.charEnds) ha complete).trans (State.checkFrame_bad crc))

/-- The last byte of a good frame whose routing raises no notice. -/
theorem exec_byteArrival_routed
    (crc : crc16 (len :: (l ++ [x]).take len.toNat) = halfAt (l ++ [x]) len.toNat)
    (h : State.route { s with link := { s.link with rxChar := none, gapTimer := .stopped, assembler := .seek } }
      (frameOf ((l ++ [x]).take len.toNat)) = (t, [])) : exec (.byteArrival x) s = .next t := by
  rw [exec_byteArrival_complete hr ha complete crc, h]
  rfl

end

/-- Settles O14: the CRC check, then the routing by type. -/
theorem completeFrameIsCheckedAndRouted : Obligations.CompleteFrameIsCheckedAndRouted := by
  intro s b len l hr ha complete received content good f k
  have enqueued {k' : Link} (crc : good) (command : f.type ≠ 0x50) (h : k.enqueue f = k') :
      exec (.byteArrival b) s = .next { s with link := k' } :=
    h ▸ exec_byteArrival_routed hr ha complete crc (State.route_command command)
  exact ⟨fun bad => exec_byteArrival_badCrc hr ha complete bad,
    fun crc command room => enqueued crc command (Link.enqueue_room f room),
    fun crc command full => enqueued crc command (Link.enqueue_full f full),
    fun crc ack malformed =>
      exec_byteArrival_routed hr ha complete crc (State.route_malformed ack (ackOperands_eq_none.2 malformed))⟩

/-! ## The level of HRX, framing errors and the gap timer (R128, R130, R132, R145) -/

theorem Link.startBit_eq (k : Link) :
    k.startBit = if k.receiver = .readyForStart ∧ k.rxChar = none then some [] else k.rxChar := by
  unfold Link.startBit
  split
  · next hr hc => exact (if_pos ⟨hr, hc⟩).symm
  · next h => exact (if_neg fun ⟨hr, hc⟩ => h hr hc).symm

theorem Link.hrxToSpace_idle {k : Link} (h : k.detector = .idle) :
    k.hrxToSpace = { k with detector := .space, rxChar := k.startBit } := by
  unfold Link.hrxToSpace
  rw [h]

theorem Link.abandonFrame_seek {k : Link} (h : k.assembler = .seek) : k.abandonFrame = k := by
  unfold Link.abandonFrame
  rw [h]

theorem Link.abandonFrame_begun {k : Link} (h : k.assembler ≠ .seek) : k.abandonFrame = k.toSeek.discardFrame := by
  unfold Link.abandonFrame
  cases e : k.assembler with
  | seek => exact absurd e h
  | length => rfl
  | body len l => rfl

/-- A framing error at a receiver that is ready (R132). -/
theorem exec_byteFramingError_ready {s : State} (hr : s.link.receiver = .readyForStart) :
    exec .byteFramingError s = .next { s with link := { s.link.abandonFrame with
      counters := { s.link.counters with framing := inc16 s.link.counters.framing }
      receiver := .waitMark, rxChar := none } } := by
  show execByteFramingError s = _
  rw [execByteFramingError, hr]
  rfl

theorem exec_gapTimerExpiry_running {s : State} {ms : Nat} (h : s.link.gapTimer = .running ms) :
    exec .gapTimerExpiry s = .next (s.modLink Link.truncate) := by
  show execGapTimerExpiry s = _
  rw [execGapTimerExpiry, h]

/-- Settles O16. -/
theorem hrxLevelAndReceiverErrors : Obligations.HrxLevelAndReceiverErrors := by
  refine ⟨fun s idle => ?_, fun s => rfl, fun s hr seek => ?_, fun s hr begun => ?_, fun s ms running => ?_⟩
  · rw [← Link.startBit_eq, ← Link.hrxToSpace_idle idle]
    rfl
  · rw [exec_byteFramingError_ready hr, Link.abandonFrame_seek seek]
  · rw [exec_byteFramingError_ready hr, Link.abandonFrame_begun begun]
    rfl
  · rw [exec_gapTimerExpiry_running running]
    rfl

end Sys2Proof.Machine
end

section
/-! PROOFS. The commands that cannot occur (O3), and the checks that a frame passes before an owner judges it (O6). -/

namespace Sys2Proof.Machine

/-! ## Frames that wait (R136) -/

/-- The code of a command names that command. -/
theorem Command.ofCode_code (c : Command) : Command.ofCode c.code = some c := by
  cases c <;> rfl

/-- The code of a command names no other. -/
theorem Command.eq_of_code {c c' : Command} (h : c.code = c'.code) : c = c' :=
  Option.some.inj ((Command.ofCode_code c).symm.trans (h ▸ Command.ofCode_code c'))

/-- A well-formed BAD_TYPE carries a type that names no command. -/
theorem ofCode_eq_none_of_wf {type tag : Byte} {p : List Byte} (h : (Instr.badType type tag p).wf = true) :
    Command.ofCode type = none := by
  simp only [Instr.wf, isBadType, Bool.and_eq_true, Option.isNone_iff_eq_none] at h
  exact h.1.1

/-- A frame of an unknown type is taken without an owner (R136, R151). -/
theorem exec_badType_taken {s : State} {type tag : Byte} {p : List Byte} (hn : Command.ofCode type = none)
    (ht : s.Takes ⟨type, tag, p⟩) : exec (.badType type tag p) s = .next (s.answered tag type .badType []) :=
  congrArg Host.Outcome.next (if_pos (by rw [hn, (s.canTake_iff _).2 ht]; rfl))

theorem exec_badType_waits {s : State} {type tag : Byte} {p : List Byte}
    (h : (s.canTake ⟨type, tag, p⟩ && (Command.ofCode type).isNone) = false) :
    exec (.badType type tag p) s = .next s :=
  congrArg Host.Outcome.next (if_neg (by rw [h]; decide))

/-- A frame that cannot be taken waits, whatever its type. -/
theorem exec_waits {i : Instr} {f : Frame} {s : State} (hf : takenFrame i = some f) (h : ¬ s.Takes f) :
    exec i s = .next s := by
  rcases exec_taking hf with ⟨c, owner, hc, -, he⟩ | he
  · rw [he, State.take_waits (hc ▸ h)]
  · have cannot : s.canTake f = false := by rw [← Bool.not_eq_true, State.canTake_iff]; exact h
    rw [he, exec_badType_waits (by rw [cannot]; rfl)]

/-! ## Commands that cannot occur (log entry 1) -/

/-- The row of a host command occurs exactly when its frame can be taken; BAD_TYPE asks for an unknown type too. -/
theorem occurs_taking {i : Instr} {f : Frame} (h : takenFrame i = some f) :
    (∀ s, occurs s i = s.canTake f) ∨ i = .badType f.type f.tag f.payload := by
  cases i with
  | badType type tag p => cases h; exact .inr rfl
  | _ => cases h <;> exact .inl fun _ => rfl

theorem exec_taking_cannot {i : Instr} {f : Frame} {s : State} (hf : takenFrame i = some f)
    (ho : occurs s i = false) : exec i s = .next s := by
  rcases occurs_taking hf with h | rfl
  · refine exec_waits hf fun ht => ?_
    rw [h, (s.canTake_iff f).2 ht] at ho
    exact nomatch ho
  · exact exec_badType_waits ho

theorem exec_linkReset_cannot {s : State} (h : s.link.detector ≠ .space) : exec .linkReset s = .next s := by
  show execLinkReset s = _
  unfold execLinkReset
  split
  · next hd => exact absurd hd h
  · rfl
  · rfl

theorem exec_gapTimerExpiry_cannot {s : State} (h : s.link.gapTimer = .stopped) : exec .gapTimerExpiry s = .next s := by
  show execGapTimerExpiry s = _
  rw [execGapTimerExpiry, h]

/-- In WAIT_MARK no character ends (R128). -/
theorem exec_byteArrival_cannot {s : State} {b : Byte} (h : s.link.receiver ≠ .readyForStart) :
    exec (.byteArrival b) s = .next s := by
  show execByteArrival b s = _
  unfold execByteArrival
  split
  · next hr => exact absurd hr h
  · rfl

theorem exec_byteFramingError_cannot {s : State} (h : s.link.receiver ≠ .readyForStart) :
    exec .byteFramingError s = .next s := by
  show execByteFramingError s = _
  unfold execByteFramingError
  split
  · next hr => exact absurd hr h
  · rfl

/-- A lane in OFF takes no arrivals (R48). -/
theorem exec_wordArrival_cannot {s : State} {l : LaneId} {w : Sample} {marker : Bool} (h : (s.lane l).state = .off) :
    exec (.wordArrival l w marker) s = .next s := by
  rw [exec_wordArrival (Lane.arrive_off h), State.raiseAll_nil, State.lane, Vector.set_getElem_self]

theorem exec_dispatchStart_cannot {s : State} (h : s.dispatchDue = false) : exec .dispatchStart s = .next s := by
  show execDispatchStart s = _
  unfold execDispatchStart
  split
  · next hd hl => simp [State.dispatchDue, hd, hl] at h
  · rfl

/-- A coefficient that the dispatch in flight does not read is not found bad (R77). -/
theorem exec_damageMarking_cannot {s : State} {c : ChanId} {k : Fin 256} (h : occurs s (.damageMarking c k) = false) :
    exec (.damageMarking c k) s = .next s := by
  show execDamageMarking c k s = _
  unfold execDamageMarking
  split
  · rfl
  · next d e he =>
    split
    · rfl
    · next b hb =>
      simp only [occurs, he, hb] at h
      rw [h]
      rfl

theorem exec_dispatchCompletion_cannot {s : State} {choice : CompletionChoice} (h : s.engine.dispatch = none) :
    exec (.dispatchCompletion choice) s = .next s := by
  show execDispatchCompletion choice s = _
  rw [execDispatchCompletion, h]

theorem exec_ackTimerExpiry_cannot {s : State} {c : ChanId} {b : BatchId} (h : (s.deliv c).timed b = false) :
    exec (.ackTimerExpiry c b) s = .next s :=
  congrArg Host.Outcome.next (if_neg (by rw [h]; decide))

theorem exec_transmissionStart_cannot {s : State} (h : s.transmissionDue = false) :
    exec .transmissionStart s = .next s := by
  show execTransmissionStart s = _
  unfold execTransmissionStart
  split
  · next hl hc => simp [State.transmissionDue, hl, hc] at h
  · rfl

theorem exec_sendCompletion_cannot {s : State} (h : s.arbiter.transmission = none) :
    exec .sendCompletion s = .next s := by
  show execSendCompletion s = _
  rw [execSendCompletion, h]

theorem exec_hrxChangesToSpace_cannot {s : State} (h : s.link.detector ≠ .idle) :
    exec .hrxChangesToSpace s = .next s :=
  congrArg Host.Outcome.next (State.modLink_hrxToSpace h)

/-- Settles O3: a host command by the frame that it cannot take, every other event by its own condition. -/
theorem commandsThatCannotOccurChangeNothing : Obligations.CommandsThatCannotOccurChangeNothing := by
  intro i s mark ho
  cases hf : takenFrame i with
  | some f => exact exec_taking_cannot hf ho
  | none =>
    cases i with
    | powerReset hrx => exact nomatch ho
    | pinReset hrx => exact nomatch ho
    | linkReset => exact exec_linkReset_cannot (by simpa [occurs] using ho)
    | gapTimerExpiry => exact exec_gapTimerExpiry_cannot (by simpa [occurs] using ho)
    | byteArrival b => exact exec_byteArrival_cannot (by simpa [occurs] using ho)
    | byteFramingError => exact exec_byteFramingError_cannot (by simpa [occurs] using ho)
    | wordArrival l w m => exact exec_wordArrival_cannot (by simpa [occurs] using ho)
    | dispatchStart => exact exec_dispatchStart_cannot ho
    | damageMarking c k => exact exec_damageMarking_cannot ho
    | dispatchCompletion choice => exact exec_dispatchCompletion_cannot (by simpa [occurs] using ho)
    | ackTimerExpiry c b => exact exec_ackTimerExpiry_cannot ho
    | transmissionStart => exact exec_transmissionStart_cannot ho
    | sendCompletion => exact exec_sendCompletion_cannot (by simpa [occurs] using ho)
    | hrxChangesToSpace => exact exec_hrxChangesToSpace_cannot (by simpa [occurs] using ho)
    | hrxChangesToMark => exact absurd rfl mark
    | _ => exact nomatch hf

/-! ## Malformed commands (R136, R151, R152) -/

/-- A well-formed row whose frame is of a command's type is the taking of it by an owner of that command. -/
theorem exec_taking_command {i : Instr} {c : Command} {tag : Byte} {p : List Byte} (hwf : i.wf = true)
    (hf : takenFrame i = some ⟨c.code, tag, p⟩) :
    ∃ owner : State → Answer, ∀ s, exec i s = .next (s.take c tag p owner) := by
  rcases exec_taking hf with ⟨c', owner, hc, -, he⟩ | rfl
  · obtain rfl := Command.eq_of_code hc
    exact ⟨owner, he⟩
  · exact nomatch (Command.ofCode_code c).symm.trans (ofCode_eq_none_of_wf hwf)

/-- Bits 1 to 7 of a byte are 0. -/
theorem byte_lt_two_iff {b : Byte} : b.toNat < 2 ↔ b = 0 ∨ b = 1 := by
  bv_omega

theorem clearByteOk_iff (a b : Byte) (rest : List Byte) : clearByteOk (a :: b :: rest) = true ↔ b = 0 ∨ b = 1 :=
  decide_eq_true_iff.trans byte_lt_two_iff

/-- Settles O6: the three checks, and the reserved bytes and bits command by command. -/
theorem malformedCommandsAreRefused : Obligations.MalformedCommandsAreRefused := by
  refine ⟨fun type tag p s hn ht => exec_badType_taken hn ht, fun i c tag p s hwf hf ht hl => ?length,
    fun i c tag p s hwf hf ht hl hr => ?reserved, fun p => ?none, fun p a b h => ?table⟩
  case length =>
    obtain ⟨owner, he⟩ := exec_taking_command hwf hf
    rw [he, State.take_badLength ht hl]
  case reserved =>
    obtain ⟨owner, he⟩ := exec_taking_command hwf hf
    rw [he, State.take_reserved ht hl hr]
  case none => simp [reservedOk]
  case table =>
    obtain ⟨rest, rfl⟩ : ∃ rest, p = a :: b :: rest :=
      ⟨p.drop 2, by rw [← List.take_append_drop 2 p, h]; simp⟩
    have first : byteAt (a :: b :: rest) 0 = a := rfl
    have second : byteAt (a :: b :: rest) 1 = b := rfl
    refine ⟨?_, ?_, ?_, ?_, fun m r hp => ?_⟩
    · simp [reservedOk, first, second]
    · simp [reservedOk, first, clearByteOk_iff]
    · simp [reservedOk, second]
    · simp [reservedOk, clearByteOk_iff]
    · rw [hp]
      exact beq_iff_eq

end Sys2Proof.Machine
end

section
/-! PROOFS. The device-level commands (section 8.5): PING (O9), LINK_SET (O10), DEVICE_QUERY (O11), and DEVICE_RESET
with the reset that the send completion of its reply performs (O12). -/

namespace Sys2Proof.Machine

variable {s : State}

/-! ## PING and LINK_SET (R138, R139) -/

/-- Settles O9. -/
theorem pingAnswersItsPayload : Obligations.PingAnswersItsPayload := fun s _ _ ht hp =>
  congrArg Host.Outcome.next (State.take_next (c := .ping) (t := s) (ns := []) ht (decide_eq_true hp) rfl rfl)

theorem linkSetOwner_accepts {p : List Byte}
    (h : (byteAt p 0).toNat ≤ 5 ∧ 1 ≤ (byteAt p 1).toNat ∧ (byteAt p 1).toNat ≤ 50) :
    linkSetOwner p s = ⟨s, .ok, [byteAt p 0, byteAt p 1], []⟩ := if_pos h

theorem linkSetOwner_refuses {p : List Byte}
    (h : ¬ ((byteAt p 0).toNat ≤ 5 ∧ 1 ≤ (byteAt p 1).toNat ∧ (byteAt p 1).toNat ≤ 50)) :
    linkSetOwner p s = .refuse .linkSet .badArg s := if_neg h

/-- Settles O10: the two values judged together. -/
theorem linkSetAnswersItsValues : Obligations.LinkSetAnswersItsValues := by
  intro s tag rate gap ht
  refine congrArg Host.Outcome.next ?_
  split
  · next h =>
    exact State.take_next (c := .linkSet) (t := s) (ns := []) ht rfl rfl (linkSetOwner_accepts (p := [rate, gap]) h)
  · next h => exact State.take_refused (c := .linkSet) ht rfl rfl (linkSetOwner_refuses (p := [rate, gap]) h)

/-! ## DEVICE_QUERY (R142) -/

theorem deviceQueryOwner_reads {p : List Byte} (h : clearFlag p = false) :
    deviceQueryOwner p s = ⟨s, .ok, s.deviceReport, []⟩ := by
  unfold deviceQueryOwner
  rw [h]
  rfl

theorem deviceQueryOwner_clears {p : List Byte} (h : clearFlag p = true) :
    deviceQueryOwner p s = ⟨s.modLink fun k => { k with counters := ⟨0, 0, 0, 0, 0⟩ }, .ok, s.deviceReport, []⟩ := by
  unfold deviceQueryOwner
  rw [h]
  rfl

/-- Settles O11, for either value of the clear flag. -/
theorem deviceQueryReportsTheLink : Obligations.DeviceQueryReportsTheLink := by
  intro s tag flag ht hf
  refine congrArg Host.Outcome.next ?_
  rcases hf with rfl | rfl
  · exact State.take_next (c := .deviceQuery) (t := s) (ns := []) ht rfl rfl (deviceQueryOwner_reads rfl)
  · exact State.take_next (c := .deviceQuery) (t := s.modLink fun k => { k with counters := ⟨0, 0, 0, 0, 0⟩ })
      (ns := []) ht rfl rfl (deviceQueryOwner_clears rfl)

/-! ## DEVICE_RESET (R143, R144) -/

/-- A DEVICE_RESET that was carried out performs the reset once its reply is sent. -/
theorem State.replyEffect_deviceReset {r : Reply} (ht : r.type = 0x02) (hs : r.status = .ok) :
    s.replyEffect r = s.performDeviceReset := by
  have other : ¬ (r.type = Command.code .linkSet ∧ r.status = .ok) := fun h => absurd (ht.symm.trans h.1) (by decide)
  exact (if_neg other).trans (if_pos ⟨ht, hs⟩)

/-- The send completion of a DEVICE_RESET reply of status OK. -/
theorem exec_sendCompletion_deviceReset {frame : Frame} {r : Reply} {rest : List Reply}
    (h : s.arbiter.transmission = some ⟨.reply, frame⟩) (hr : s.link.replies = r :: rest) (ht : r.type = 0x02)
    (hs : r.status = .ok) :
    exec .sendCompletion s = .next
      (s.freeTransmitter.modLink fun k => { k with replies := rest }).performDeviceReset := by
  have sent : s.freeTransmitter.replySent = _ := State.replySent_head hr
  rw [exec_sendCompletion h, State.sent, sent, State.replyEffect_deviceReset ht hs]
  rfl

/-- Settles O12: the taking, the frames that wait meanwhile, and the reset. -/
theorem deviceResetIsPendingThenPerformed : Obligations.DeviceResetIsPendingThenPerformed := by
  refine ⟨fun s tag ht => ?taking, fun i f s hf pending => ?waits, fun s frame r rest h hr ht hs => ?performed⟩
  case taking =>
    exact congrArg Host.Outcome.next (State.take_next (c := .deviceReset)
      (t := s.modLink fun k => { k with resetPending := true }) (ns := []) ht rfl rfl rfl)
  case waits => exact exec_waits hf fun ht => nomatch ht.running.symm.trans pending
  case performed =>
    rw [exec_sendCompletion_deviceReset h hr ht hs]
    rfl

end Sys2Proof.Machine
end

section
/-! PROOFS. The one reply of each taking (O4): the status and the length of the body that each owner answers, and that
no owner touches the two queues of the link controller. -/

namespace Sys2Proof.Machine

/-! ## Status and body of the owners (section 9.4)

Every branch of an owner writes its status and the fields of its body, so that a branch is settled by reading them off;
what remains is the refusal of a bank and the bodies that hold a page list or an operation slot. -/

/-- An answer to a command of an allowed length: its status is that of no check on type or length, and its body has
the length of section 9.4. -/
structure Answer.Sized (c : Command) (p : List Byte) (a : Answer) : Prop where
  type   : a.status ≠ .badType
  length : a.status ≠ .badLength
  body   : a.body.length = bodyLength c p

/-- A PING has no reserved byte, so every payload that is refused for one has the body of a refusal. -/
theorem refusalBody_length {c : Command} {p : List Byte} (h : reservedOk c p = false) :
    (refusalBody c).length = bodyLength c p := by
  cases c with
  | ping => exact nomatch h
  | _ => rfl

/-- A refusal with a body of its type; a PING is refused by its length alone. -/
theorem Answer.Sized.refused {c : Command} {p : List Byte} (s : State) {status : Status} (hc : c ≠ .ping)
    (h : status ≠ .badType ∧ status ≠ .badLength) : (Answer.refuse c status s).Sized c p := by
  refine ⟨h.1, h.2, ?_⟩
  cases c with
  | ping => exact absurd rfl hc
  | _ => rfl

/-- A bank is turned away as a bad argument or for its state. -/
theorem State.judge_status {s : State} {b : BankId} {status : Status} (h : s.judge b = some status) :
    status ≠ .badType ∧ status ≠ .badLength := by
  unfold State.judge at h
  split at h <;> cases h <;> exact ⟨nofun, nofun⟩

/-- A page list of at most four pages makes five bytes. -/
theorem pageEntries_length {pages : List PageId} (h : pages.length ≤ 4) : (pageEntries pages).length = 5 := by
  simp [pageEntries]
  omega

theorem pagesFor_le_four {t : Nat} (h : t ≤ 256) : pagesFor t ≤ 4 := by
  unfold pagesFor
  omega

theorem pingOwner_sized (p : List Byte) (s : State) : (pingOwner p s).Sized .ping p := ⟨nofun, nofun, rfl⟩

theorem deviceResetOwner_sized (p : List Byte) (s : State) : (deviceResetOwner s).Sized .deviceReset p :=
  ⟨nofun, nofun, rfl⟩

theorem linkSetOwner_sized (p : List Byte) (s : State) : (linkSetOwner p s).Sized .linkSet p := by
  unfold linkSetOwner
  split
  all_goals exact ⟨nofun, nofun, rfl⟩

theorem deviceQueryOwner_sized (p : List Byte) (s : State) : (deviceQueryOwner p s).Sized .deviceQuery p :=
  ⟨nofun, nofun, rfl⟩

theorem bankOpenOwner_sized (p : List Byte) (s : State) : (bankOpenOwner p s).Sized .bankOpen p := by
  unfold bankOpenOwner
  split
  · exact ⟨nofun, nofun, rfl⟩
  · next b _ =>
    dsimp only
    split
    · exact ⟨nofun, nofun, rfl⟩
    · split
      · exact ⟨nofun, nofun, rfl⟩
      · next ht =>
        split
        · exact ⟨nofun, nofun, rfl⟩
        · have four : ((s.openBank b (halfAt p 2).toNat).bank b).pages.length ≤ 4 := by
            rw [State.openBank_bank, if_pos rfl]
            exact (List.length_take_le _ _).trans (pagesFor_le_four (not_not.1 ht).2)
          exact ⟨nofun, nofun, congrArg (· + 1) (pageEntries_length four)⟩

theorem bankDataOwner_sized (p : List Byte) (s : State) : (bankDataOwner p s).Sized .bankData p := by
  unfold bankDataOwner
  split
  · exact ⟨nofun, nofun, rfl⟩
  · dsimp only
    repeat' split
    all_goals exact ⟨nofun, nofun, rfl⟩

theorem bankSealOwner_sized (p : List Byte) (us : List (Fin 256 × Sample)) (s : State) :
    (bankSealOwner p us s).Sized .bankSeal p := by
  unfold bankSealOwner
  split
  · exact ⟨nofun, nofun, rfl⟩
  · dsimp only
    repeat' split
    all_goals exact ⟨nofun, nofun, rfl⟩

theorem bankFreeOwner_sized (p : List Byte) (s : State) : (bankFreeOwner p s).Sized .bankFree p := by
  unfold bankFreeOwner
  repeat' split
  all_goals exact ⟨nofun, nofun, rfl⟩

/-- A bank of the page law owns at most four pages (R28). -/
theorem State.PageLaw.pages_le_four {s : State} (h : s.PageLaw) (b : BankId) : (s.bank b).pages.length ≤ 4 := by
  by_cases hf : (s.bank b).state = .free
  · rw [(h.free b hf).2]
    exact Nat.zero_le _
  · obtain ⟨-, taps, pages⟩ := h.owned b hf
    rw [pages]
    exact pagesFor_le_four taps

theorem Bank.report_length {k : Bank} (h : k.pages.length ≤ 4) (n : Nat) : (k.report n).length = 13 := by
  simp [Bank.report, pageEntries_length h, natBytes, halfBytes]

theorem bankQueryOwner_sized (p : List Byte) {s : State} (h : s.PageLaw) :
    (bankQueryOwner p s).Sized .bankQuery p := by
  unfold bankQueryOwner
  split
  · exact ⟨nofun, nofun, rfl⟩
  · next b _ => exact ⟨nofun, nofun, Bank.report_length (h.pages_le_four b) _⟩

theorem laneSetOwner_sized (p : List Byte) (s : State) : (laneSetOwner p s).Sized .laneSet p := by
  unfold laneSetOwner
  split
  · exact ⟨nofun, nofun, rfl⟩
  · dsimp only
    repeat' split
    all_goals exact ⟨nofun, nofun, rfl⟩

theorem laneQueryOwner_sized (p : List Byte) (s : State) : (laneQueryOwner p s).Sized .laneQuery p := by
  unfold laneQueryOwner
  split
  all_goals exact ⟨nofun, nofun, rfl⟩

theorem chanConfigOwner_sized (p : List Byte) (s : State) : (chanConfigOwner p s).Sized .chanConfig p := by
  unfold chanConfigOwner
  repeat' split
  all_goals exact ⟨nofun, nofun, rfl⟩

theorem chanBindOwner_sized (p : List Byte) (s : State) : (chanBindOwner p s).Sized .chanBind p := by
  unfold chanBindOwner
  have judged {b : BankId} {status : Status} (h : s.judge b = some status) :
      (Answer.refuse .chanBind status s).Sized .chanBind p := .refused s nofun (State.judge_status h)
  repeat' split
  · exact ⟨nofun, nofun, rfl⟩
  · exact ⟨nofun, nofun, rfl⟩
  · next h => exact judged h
  · exact ⟨nofun, nofun, rfl⟩
  · exact ⟨nofun, nofun, rfl⟩
  · next h => exact judged h
  all_goals exact ⟨nofun, nofun, rfl⟩

theorem chanStartOwner_sized (p : List Byte) (s : State) : (chanStartOwner p s).Sized .chanStart p := by
  unfold chanStartOwner
  repeat' split
  all_goals exact ⟨nofun, nofun, rfl⟩

theorem chanStopOwner_sized (tag : Byte) (p : List Byte) (s : State) : (chanStopOwner tag p s).Sized .chanStop p := by
  unfold chanStopOwner
  repeat' split
  all_goals exact ⟨nofun, nofun, rfl⟩

theorem chanAbortOwner_sized (p : List Byte) (s : State) : (chanAbortOwner p s).Sized .chanAbort p := by
  unfold chanAbortOwner
  repeat' split
  all_goals exact ⟨nofun, nofun, rfl⟩

theorem chanClearOwner_sized (p : List Byte) (s : State) : (chanClearOwner p s).Sized .chanClear p := by
  unfold chanClearOwner
  repeat' split
  all_goals exact ⟨nofun, nofun, rfl⟩

theorem chanSwapOwner_sized (tag : Byte) (p : List Byte) (s : State) : (chanSwapOwner tag p s).Sized .chanSwap p := by
  unfold chanSwapOwner
  have judged {b : BankId} {status : Status} (h : s.judge b = some status) :
      (Answer.refuse .chanSwap status s).Sized .chanSwap p := .refused s nofun (State.judge_status h)
  split
  · exact ⟨nofun, nofun, rfl⟩
  · split
    · split
      · exact ⟨nofun, nofun, rfl⟩
      · split
        · exact ⟨nofun, nofun, rfl⟩
        · split
          · next h => exact judged h
          · exact ⟨nofun, nofun, rfl⟩
    · split
      · exact ⟨nofun, nofun, rfl⟩
      · split
        · exact ⟨nofun, nofun, rfl⟩
        · split
          · next h => exact judged h
          · exact ⟨nofun, nofun, rfl⟩
    all_goals exact ⟨nofun, nofun, rfl⟩

theorem OpSlot.report_length (o : OpSlot) : o.report.length = 4 := by
  cases o <;> rfl

theorem chanReport_length (ch : Channel) (d : ChanDelivery) : (chanReport ch d).length = 49 := by
  simp [chanReport, ChanConfig.report, OpSlot.report_length, ChanDelivery.report, ChanCounters.report, natBytes,
    halfBytes, wordBytes]

theorem chanQueryOwner_sized (p : List Byte) (s : State) : (chanQueryOwner p s).Sized .chanQuery p := by
  unfold chanQueryOwner
  split
  · exact ⟨nofun, nofun, rfl⟩
  · exact ⟨nofun, nofun, chanReport_length _ _⟩

theorem chanRotateOwner_sized (p : List Byte) (s : State) : (chanRotateOwner p s).Sized .chanRotate p := by
  unfold chanRotateOwner
  repeat' split
  all_goals exact ⟨nofun, nofun, rfl⟩

theorem watchSetOwner_sized (p : List Byte) (s : State) : (watchSetOwner p s).Sized .watchSet p := by
  unfold watchSetOwner
  split
  all_goals exact ⟨nofun, nofun, rfl⟩

theorem watchOffOwner_sized (p : List Byte) (s : State) : (watchOffOwner p s).Sized .watchOff p := by
  unfold watchOffOwner
  split
  all_goals exact ⟨nofun, nofun, rfl⟩

theorem watchQueryOwner_sized (p : List Byte) (s : State) : (watchQueryOwner p s).Sized .watchQuery p := by
  unfold watchQueryOwner
  split
  all_goals exact ⟨nofun, nofun, rfl⟩

/-! ## The queues that a taking reads (R136, R137) -/

/-- The inbound queue, the reply queue and rx_discards are as they were. -/
structure Link.SameQueues (k k' : Link) : Prop where
  inbound  : k'.inbound = k.inbound := by rfl
  replies  : k'.replies = k.replies := by rfl
  discards : k'.rxDiscards = k.rxDiscards := by rfl

theorem State.Inner.sameQueues {s t : State} (h : s.Inner t) : s.link.SameQueues t.link := by
  rw [h.link]
  exact {}

theorem Answer.Outer.sameQueues {c : Command} {s : State} {a : Answer} (h : a.Outer c s) (fair : a.Fair s) :
    s.link.SameQueues a.state.link := ⟨h.link.inbound, h.link.replies, fair.discards⟩

/-- The row `i` is the taking of frame `f` by an owner that leaves the queues alone, and whose answer has a status and
a body as section 9.4 gives them. -/
def TakenByOwner (i : Instr) (f : Frame) : Prop :=
  ∃ (c : Command) (owner : State → Answer), f.type = c.code ∧
    (∀ s : State, s.link.SameQueues (owner s).state.link) ∧
    (∀ s : State, s.PageLaw → (owner s).Sized c f.payload) ∧
    ∀ s, exec i s = .next (s.take c f.tag f.payload owner)

/-- An owner that leaves the link controller alone. -/
theorem TakenByOwner.of_inner {i : Instr} {f : Frame} {c : Command} {owner : State → Answer} (hc : f.type = c.code)
    (inner : ∀ s : State, s.Inner (owner s).state) (sized : ∀ s : State, (owner s).Sized c f.payload)
    (he : ∀ s, exec i s = .next (s.take c f.tag f.payload owner)) : TakenByOwner i f :=
  ⟨c, owner, hc, fun s => (inner s).sameQueues, fun s _ => sized s, he⟩

/-- An owner of the link controller or of the lanes. -/
theorem TakenByOwner.of_outer {i : Instr} {f : Frame} {c : Command} {owner : State → Answer} (hc : f.type = c.code)
    (outer : ∀ s : State, (owner s).Outer c s) (fair : ∀ s : State, (owner s).Fair s)
    (sized : ∀ s : State, (owner s).Sized c f.payload)
    (he : ∀ s, exec i s = .next (s.take c f.tag f.payload owner)) : TakenByOwner i f :=
  ⟨c, owner, hc, fun s => (outer s).sameQueues (fair s), fun s _ => sized s, he⟩

theorem exec_takenByOwner {i : Instr} {f : Frame} (h : takenFrame i = some f) :
    TakenByOwner i f ∨ i = .badType f.type f.tag f.payload := by
  cases i with
  | deviceReset tag p =>
    cases h
    exact .inl (.of_outer (c := .deviceReset) rfl deviceResetOwner_outer deviceResetOwner_fair
      (deviceResetOwner_sized p) fun _ => rfl)
  | linkSet tag p =>
    cases h
    exact .inl (.of_outer (c := .linkSet) rfl (linkSetOwner_outer p) (linkSetOwner_fair p) (linkSetOwner_sized p)
      fun _ => rfl)
  | deviceQuery tag p =>
    cases h
    exact .inl (.of_outer (c := .deviceQuery) rfl (deviceQueryOwner_outer p) (deviceQueryOwner_fair p)
      (deviceQueryOwner_sized p) fun _ => rfl)
  | laneSet tag p =>
    cases h
    exact .inl (.of_outer (c := .laneSet) rfl (laneSetOwner_outer p) (laneSetOwner_fair p) (laneSetOwner_sized p)
      fun _ => rfl)
  | laneQuery tag p =>
    cases h
    exact .inl (.of_outer (c := .laneQuery) rfl (laneQueryOwner_outer p) (laneQueryOwner_fair p)
      (laneQueryOwner_sized p) fun _ => rfl)
  | bankQuery tag p =>
    cases h
    exact .inl ⟨.bankQuery, bankQueryOwner p, rfl, fun s => (bankQueryOwner_inner p s).sameQueues,
      fun _ => bankQueryOwner_sized p, fun _ => rfl⟩
  | ping tag p =>
    cases h
    exact .inl (.of_inner (c := .ping) rfl (pingOwner_inner p) (pingOwner_sized p) fun _ => rfl)
  | bankOpen tag p =>
    cases h
    exact .inl (.of_inner (c := .bankOpen) rfl (bankOpenOwner_inner p) (bankOpenOwner_sized p) fun _ => rfl)
  | bankData tag p =>
    cases h
    exact .inl (.of_inner (c := .bankData) rfl (bankDataOwner_inner p) (bankDataOwner_sized p) fun _ => rfl)
  | bankSeal tag p us =>
    cases h
    exact .inl (.of_inner (c := .bankSeal) rfl (bankSealOwner_inner p us) (bankSealOwner_sized p us) fun _ => rfl)
  | bankFree tag p =>
    cases h
    exact .inl (.of_inner (c := .bankFree) rfl (bankFreeOwner_inner p) (bankFreeOwner_sized p) fun _ => rfl)
  | chanConfig tag p =>
    cases h
    exact .inl (.of_inner (c := .chanConfig) rfl (chanConfigOwner_inner p) (chanConfigOwner_sized p) fun _ => rfl)
  | chanBind tag p =>
    cases h
    exact .inl (.of_inner (c := .chanBind) rfl (chanBindOwner_inner p) (chanBindOwner_sized p) fun _ => rfl)
  | chanStart tag p =>
    cases h
    exact .inl (.of_inner (c := .chanStart) rfl (chanStartOwner_inner p) (chanStartOwner_sized p) fun _ => rfl)
  | chanStop tag p =>
    cases h
    exact .inl (.of_inner (c := .chanStop) rfl (chanStopOwner_inner tag p) (chanStopOwner_sized tag p) fun _ => rfl)
  | chanAbort tag p =>
    cases h
    exact .inl (.of_inner (c := .chanAbort) rfl (chanAbortOwner_inner p) (chanAbortOwner_sized p) fun _ => rfl)
  | chanClear tag p =>
    cases h
    exact .inl (.of_inner (c := .chanClear) rfl (chanClearOwner_inner p) (chanClearOwner_sized p) fun _ => rfl)
  | chanSwap tag p =>
    cases h
    exact .inl (.of_inner (c := .chanSwap) rfl (chanSwapOwner_inner tag p) (chanSwapOwner_sized tag p) fun _ => rfl)
  | chanQuery tag p =>
    cases h
    exact .inl (.of_inner (c := .chanQuery) rfl (chanQueryOwner_inner p) (chanQueryOwner_sized p) fun _ => rfl)
  | chanRotate tag p =>
    cases h
    exact .inl (.of_inner (c := .chanRotate) rfl (chanRotateOwner_inner p) (chanRotateOwner_sized p) fun _ => rfl)
  | watchSet tag p =>
    cases h
    exact .inl (.of_inner (c := .watchSet) rfl (watchSetOwner_inner p) (watchSetOwner_sized p) fun _ => rfl)
  | watchOff tag p =>
    cases h
    exact .inl (.of_inner (c := .watchOff) rfl (watchOffOwner_inner p) (watchOffOwner_sized p) fun _ => rfl)
  | watchQuery tag p =>
    cases h
    exact .inl (.of_inner (c := .watchQuery) rfl (watchQueryOwner_inner p) (watchQueryOwner_sized p) fun _ => rfl)
  | badType type tag p => cases h; exact .inr rfl
  | _ => exact nomatch h

/-! ## The reply of a taking -/

theorem State.PageLaw.popInbound {s : State} (h : s.PageLaw) : s.popInbound.PageLaw := { h with }

/-- What a taking makes of the two queues, with the status and the body of its reply. -/
theorem State.take_reply {s : State} {c : Command} {tag : Byte} {p : List Byte} {owner : State → Answer}
    (ht : s.Takes ⟨c.code, tag, p⟩) (queues : s.popInbound.link.SameQueues (owner s.popInbound).state.link)
    (sized : (owner s.popInbound).Sized c p) :
    ∃ (status : Status) (body : List Byte),
      (s.take c tag p owner).link.inbound = s.link.inbound.tail ∧
      (s.take c tag p owner).link.replies = s.link.replies ++ [⟨tag, c.code, status, body, s.link.rxDiscards⟩] ∧
      (s.take c tag p owner).link.rxDiscards = 0 ∧
      if lengthOk c p.length then status ≠ .badType ∧ status ≠ .badLength ∧ body.length = bodyLength c p
      else status = .badLength ∧ body = [] := by
  cases hl : lengthOk c p.length with
  | false =>
    rw [State.take_badLength ht hl]
    exact ⟨.badLength, [], rfl, rfl, rfl, rfl, rfl⟩
  | true =>
    cases hr : reservedOk c p with
    | false =>
      rw [State.take_reserved ht hl hr]
      exact ⟨.badArg, refusalBody c, rfl, rfl, rfl, nofun, nofun, refusalBody_length hr⟩
    | true =>
      rw [State.take_owner ht hl hr rfl]
      generalize owner s.popInbound = a at queues sized
      obtain ⟨inbound, replies, discards⟩ := queues
      refine ⟨a.status, a.body, ?_, ?_, rfl, sized.type, sized.length, sized.body⟩
      · simp [State.queueReply, inbound, State.popInbound]
      · simp [State.queueReply, replies, discards, State.popInbound]

/-- Settles O4: an unknown type without an owner, every other by the owner of its command. -/
theorem eachTakingQueuesOneReply : Obligations.EachTakingQueuesOneReply := by
  intro i f s hwf hf ht law
  rcases exec_takenByOwner hf with ⟨c, owner, hc, queues, sized, he⟩ | he
  · obtain ⟨type, tag, p⟩ := f
    obtain rfl : type = c.code := hc
    obtain ⟨status, body, inbound, replies, discards, answer⟩ :=
      State.take_reply ht (queues _) (sized _ law.popInbound)
    refine ⟨_, status, body, he s, inbound, replies, discards, ?_⟩
    rw [Command.ofCode_code]
    exact answer
  · have unknown : Command.ofCode f.type = none := ofCode_eq_none_of_wf (he ▸ hwf)
    refine ⟨s.answered f.tag f.type .badType [], .badType, [], ?_, rfl, rfl, rfl, ?_⟩
    · rw [he]
      exact exec_badType_taken unknown ht
    · rw [unknown]
      exact ⟨rfl, rfl⟩

end Sys2Proof.Machine
end

section
/-! PROOFS. The bytes of a frame, taken one by one, and the frame they queue (O17): a run over the arrivals of bytes, the
run through each state of the assembler, and what the last byte finds. -/

namespace Sys2Proof.Machine

/-! ## A run over the arrivals of bytes -/

/-- The part with a character ended, frame assembly at `a` with the gap timer running, and bytes still to arrive. -/
def State.receiving (s : State) (a : Assembler) (bs : List Byte) : State :=
  { s with
    link := { s.link with rxChar := none, gapTimer := .running s.link.gapTimeout, assembler := a }
    pending := bs.map .byteArrival }

/-- A run whose first step answers a next state goes on from there. -/
theorem run_next {M : Host.Core} {s t : M.State} {k : Nat} (h : M.step s = .next t) : M.run (k + 1) s = M.run k t := by
  rw [Host.Core.run, h]

/-- The first arrival of a run takes one step of it. -/
theorem run_arrival {s t : State} {b : Byte} {bs : List Byte}
    (h : exec (.byteArrival b) { s with pending := bs.map .byteArrival } = .next t) :
    Sys2Proof.core.run (b :: bs).length { s with pending := (b :: bs).map .byteArrival } =
      Sys2Proof.core.run bs.length t :=
  run_next (M := Sys2Proof.core) h

section
variable {s : State} (hr : s.link.receiver = .readyForStart)
include hr

/-- SYNC begins a frame. -/
theorem run_sync (ha : s.link.assembler = .seek) (bs : List Byte) :
    Sys2Proof.core.run (0xA7 :: bs).length { s with pending := (0xA7 :: bs).map .byteArrival } =
      Sys2Proof.core.run bs.length (s.receiving .length bs) := by
  obtain ⟨sync, -⟩ := assemblerFollowsItsTable { s with pending := bs.map .byteArrival } 0xA7 hr
  exact run_arrival (sync ha rfl)

/-- A legal LEN begins the body. -/
theorem run_len {len : Byte} (h : 2 ≤ len.toNat ∧ len.toNat ≤ 250) (bs : List Byte) :
    Sys2Proof.core.run (len :: bs).length (s.receiving .length (len :: bs)) =
      Sys2Proof.core.run bs.length (s.receiving (.body len []) bs) := by
  obtain ⟨-, -, legal, -⟩ := assemblerFollowsItsTable (s.receiving .length bs) len hr
  exact run_arrival (s := s.receiving .length []) (legal rfl h)

/-- Bytes that do not complete the frame are collected. -/
theorem run_body {len : Byte} (more : List Byte) (l bs : List Byte)
    (short : l.length + more.length < len.toNat + 2) :
    Sys2Proof.core.run (more ++ bs).length (s.receiving (.body len l) (more ++ bs)) =
      Sys2Proof.core.run bs.length (s.receiving (.body len (l ++ more)) bs) := by
  induction more generalizing l with
  | nil => rw [List.append_nil, List.nil_append]
  | cons b more ih =>
    rw [List.length_cons] at short
    obtain ⟨-, -, -, -, collected⟩ := assemblerFollowsItsTable (s.receiving (.body len l) (more ++ bs)) b hr
    calc Sys2Proof.core.run (b :: (more ++ bs)).length (s.receiving (.body len l) (b :: (more ++ bs)))
        = Sys2Proof.core.run (more ++ bs).length (s.receiving (.body len (l ++ [b])) (more ++ bs)) :=
          run_arrival (s := s.receiving (.body len l) []) (collected len l rfl (by omega))
      _ = Sys2Proof.core.run bs.length (s.receiving (.body len (l ++ [b] ++ more)) bs) :=
          ih (l ++ [b]) (by rw [List.length_append, List.length_singleton]; omega)
      _ = _ := by rw [List.append_assoc, List.singleton_append]

/-- The last byte of a good frame that is no ACK queues the frame in an inbound queue with room. -/
theorem run_lastByte {len b : Byte} {l : List Byte} (complete : l.length + 1 = len.toNat + 2)
    (crc : crc16 (len :: (l ++ [b]).take len.toNat) = halfAt (l ++ [b]) len.toNat)
    (command : (frameOf ((l ++ [b]).take len.toNat)).type ≠ 0x50) (room : s.link.inbound.length < 4) :
    Sys2Proof.core.run 1 (s.receiving (.body len l) [b]) = .next { s with
      link := { s.link with
        rxChar := none, gapTimer := .stopped, assembler := .seek
        inbound := s.link.inbound ++ [frameOf ((l ++ [b]).take len.toNat)] }
      pending := [] } := by
  obtain ⟨-, queued, -⟩ :=
    completeFrameIsCheckedAndRouted (s.receiving (.body len l) []) b len l hr rfl complete
  exact run_arrival (s := s.receiving (.body len l) []) (bs := []) (queued crc command room)

end

/-! ## What the last byte finds (section 9.1) -/

section
variable (f : Frame)

/-- The LEN byte of a frame. -/
def Frame.len : Byte := natByte (f.payload.length + 2)

/-- The bytes of a frame that LEN counts. -/
def Frame.content : List Byte := f.type :: f.tag :: f.payload

/-- The low byte of the CRC, the last byte but one of a frame. -/
def Frame.crcLow : Byte := (crc16 f.body).extractLsb' 0 8

/-- The high byte of the CRC, the last byte of a frame. -/
def Frame.crcHigh : Byte := (crc16 f.body).extractLsb' 8 8

theorem Frame.body_eq : f.body = f.len :: f.content := rfl

theorem Frame.content_length : f.content.length = f.payload.length + 2 := rfl

theorem frameOf_content : frameOf f.content = f := rfl

/-- What is collected behind LEN. -/
theorem Frame.collected_eq : f.content ++ [f.crcLow] ++ [f.crcHigh] = f.content ++ halfBytes (crc16 f.body) :=
  List.append_assoc ..

theorem Frame.bytes_eq : f.bytes = 0xA7 :: f.len :: (f.content ++ [f.crcLow] ++ [f.crcHigh]) := by
  rw [f.collected_eq]
  rfl

/-- LEN of a frame of the size that the assembler takes. -/
theorem Frame.len_toNat {f : Frame} (h : f.payload.length ≤ 248) : f.len.toNat = f.content.length :=
  natByte_toNat (by omega)

end

/-- A field behind other bytes reads back, low byte first. -/
theorem halfAt_append_halfBytes (l : List Byte) (x : Half) : halfAt (l ++ halfBytes x) l.length = x := by
  have low : byteAt (l ++ halfBytes x) l.length = x.extractLsb' 0 8 := by simp [byteAt, halfBytes]
  have high : byteAt (l ++ halfBytes x) (l.length + 1) = x.extractLsb' 8 8 := by simp [byteAt, halfBytes]
  rw [halfAt, low, high, halfBytes_append]

/-- Settles O17: SYNC, LEN, all bytes behind it but one, and the last. -/
theorem frameBytesBecomeOneQueuedFrame : Obligations.FrameBytesBecomeOneQueuedFrame := by
  intro s f hr ha hp command room
  have len := Frame.len_toNat hp
  have legal : 2 ≤ f.len.toNat ∧ f.len.toNat ≤ 250 := by rw [len, f.content_length]; omega
  have size : (f.content ++ [f.crcLow]).length = f.len.toNat + 1 := by rw [List.length_append, len]; rfl
  have content : (f.content ++ [f.crcLow] ++ [f.crcHigh]).take f.len.toNat = f.content := by
    rw [f.collected_eq, len, List.take_left]
  have crc : halfAt (f.content ++ [f.crcLow] ++ [f.crcHigh]) f.len.toNat = crc16 f.body := by
    rw [f.collected_eq, len, halfAt_append_halfBytes]
  have queued := run_lastByte hr (congrArg (· + 1) size) (by rw [content, crc, f.body_eq])
    (by rwa [content, frameOf_content]) room
  rw [content, frameOf_content] at queued
  rw [f.bytes_eq, run_sync hr ha, run_len hr legal, run_body hr _ [] _ (by rw [size, List.length_nil]; omega)]
  exact queued.trans (by rw [← ha])

end Sys2Proof.Machine
end

section
/-! PROOFS. The codes and layouts of chapter 9 (O7): command codes and payload lengths, the CRC-16, the bytes of a field,
the bits of a flags byte, and the arguments of the notices. -/

namespace Sys2Proof.Machine

/-! ## Command codes and payload lengths (section 9.2) -/

theorem Command.mem_all (c : Command) : c ∈ Command.all := by
  cases c <;> decide

/-- A byte that no code equals names no command. -/
theorem Command.ofCode_eq_none {b : Byte} : Command.ofCode b = none ↔ ∀ c : Command, c.code ≠ b := by
  simp [Command.ofCode, Command.mem_all]

/-- BANK_DATA carries 1 to 32 coefficients behind four bytes. -/
theorem lengthOk_bankData {n : Nat} : lengthOk .bankData n = true ↔ ∃ k, 1 ≤ k ∧ k ≤ 32 ∧ n = 4 + 2 * k := by
  have range : lengthOk .bankData n = true ↔ (6 ≤ n ∧ n ≤ 68) ∧ n % 2 = 0 := by simp [lengthOk]
  rw [range]
  constructor
  · rintro ⟨⟨low, high⟩, even⟩
    exact ⟨(n - 4) / 2, by omega, by omega, by omega⟩
  · rintro ⟨k, low, high, rfl⟩
    omega

/-- A command that allows one length allows no other. -/
theorem lengthOk_fixed {cs : List Command} {len : Nat} (h : ∀ c ∈ cs, ∀ n, lengthOk c n = (n == len)) (n : Nat) :
    ∀ c ∈ cs, (lengthOk c n = true ↔ n = len) := fun c hc => by
  rw [h c hc, beq_iff_eq]

/-! ## The CRC-16 (R34) -/

theorem crc16_append_byte (bs : List Byte) (b : Byte) : crc16 (bs ++ [b]) = crcByte (crc16 bs) b :=
  List.foldl_append

/-- The check value of this CRC: that of the nine digits "123456789". -/
theorem crc16_digits : crc16 [0x31, 0x32, 0x33, 0x34, 0x35, 0x36, 0x37, 0x38, 0x39] = 0x29B1 := by
  decide +kernel

/-! ## The bytes of a field (00_scope.md, Byte order and sign) -/

/-- The bytes above the lowest. -/
theorem extractLsb'_append_byte {n : Nat} (x : BitVec n) (a : Byte) (i : Nat) :
    (x ++ a).extractLsb' (i + 8) 8 = x.extractLsb' i 8 :=
  (BitVec.extractLsb'_append_eq_of_le (Nat.le_add_left 8 i)).trans (by rw [Nat.add_sub_cancel])

theorem halfBytes_byte_append (b a : Byte) : halfBytes (b ++ a) = [a, b] :=
  congrArg₂ (fun x y => [x, y]) BitVec.extractLsb'_append_eq_right BitVec.extractLsb'_append_eq_left

theorem outputBytes_half_append (x : Half) (a : Byte) : outputBytes (x ++ a) = a :: halfBytes x :=
  congrArg₂ List.cons BitVec.extractLsb'_append_eq_right
    (congrArg₂ (fun y z => [y, z]) (extractLsb'_append_byte x a 0) (extractLsb'_append_byte x a 8))

theorem wordBytes_output_append (x : Output) (a : Byte) : wordBytes (x ++ a) = a :: outputBytes x :=
  congrArg₂ List.cons BitVec.extractLsb'_append_eq_right
    (congrArg₂ List.cons (extractLsb'_append_byte x a 0)
      (congrArg₂ (fun y z => [y, z]) (extractLsb'_append_byte x a 8) (extractLsb'_append_byte x a 16)))

theorem natBytes_eq {n : Nat} (h : n < 65536) : natBytes n = [natByte (n % 256), natByte (n / 256)] := by
  have low : (BitVec.ofNat 16 n).extractLsb' 0 8 = natByte (n % 256) := by
    refine BitVec.eq_of_toNat_eq ?_
    simp [natByte]
  have high : (BitVec.ofNat 16 n).extractLsb' 8 8 = natByte (n / 256) := by
    refine BitVec.eq_of_toNat_eq ?_
    simp [natByte, Nat.shiftRight_eq_div_pow, Nat.mod_eq_of_lt h]
  rw [natBytes, halfBytes, low, high]

/-! ## The bits of a byte -/

/-- Bits summed from the least significant one are the bits of the sum. -/
theorem testBit_foldr (bits : List Bool) (i : Nat) :
    (bits.foldr (fun (b : Bool) acc => 2 * acc + b.toNat) 0).testBit i = bits.getD i false := by
  induction bits generalizing i with
  | nil => simp
  | cons b bits ih =>
    rw [List.foldr_cons, ← Nat.bit_val]
    cases i with
    | zero => simp
    | succ i => rw [Nat.testBit_bit_succ, ih, List.getD_cons_succ]

/-- Bit `i` of a byte made of bits; the bits above those given are 0. -/
theorem bitsToByte_getLsbD (bits : List Bool) {i : Nat} (h : i < 8) :
    (bitsToByte bits).getLsbD i = bits.getD i false := by
  rw [bitsToByte, BitVec.getLsbD_ofNat, testBit_foldr]
  simp [h]

/-- A byte made of bits, written out. -/
theorem bitsToByte_bits (bits : List Bool) :
    (List.range 8).map (bitsToByte bits).getLsbD = (List.range 8).map fun i => bits.getD i false :=
  List.map_congr_left fun _ hi => bitsToByte_getLsbD bits (List.mem_range.1 hi)

/-- The bit of a slot is set exactly when the slot is in the set. -/
theorem slotsByte_getLsbD (set : List SlotId) (p : SlotId) : (slotsByte set).getLsbD p.val = set.contains p := by
  rw [slotsByte, bitsToByte_getLsbD _ p.isLt]
  simp

/-! ## The layouts -/

/-- Settles O7: the tables of codes by evaluation, the layouts by the laws of lengths, fields and bits above. -/
theorem typeCodesAndLengthsFollowTheTable : Obligations.TypeCodesAndLengthsFollowTheTable := by
  refine ⟨⟨rfl, fun c => ⟨Command.mem_all c, Command.ofCode_code c⟩, fun _ => Command.ofCode_eq_none, ?ping,
    fun _ => lengthOk_bankData, lengthOk_fixed (by simp [lengthOk]), lengthOk_fixed (by simp [lengthOk]),
    lengthOk_fixed (by simp [lengthOk])⟩, ⟨rfl, crc16_append_byte, crc16_digits⟩, ?fields, fun _ => natByte_toNat,
    fun _ => natBytes_eq, ?codes, ⟨rfl, rfl, fun _ => ⟨rfl, rfl⟩⟩, ⟨rfl, fun _ _ _ => ⟨rfl, rfl⟩⟩,
    fun _ _ => bitsToByte_bits _, fun _ => bitsToByte_bits _, slotsByte_getLsbD, ?notices⟩
  case ping => exact fun _ => decide_eq_true_iff
  case fields =>
    intro a b c d
    refine ⟨halfBytes_byte_append b a, ?_, ?_⟩
    · rw [outputBytes_half_append, halfBytes_byte_append]
    · rw [wordBytes_output_append, outputBytes_half_append, halfBytes_byte_append]
  case codes => exact ⟨rfl, rfl, rfl, rfl, rfl, rfl, rfl, rfl, rfl, rfl, rfl, rfl, rfl, rfl⟩
  case notices =>
    intro l lost w c index v q n cause shape
    exact ⟨⟨rfl, rfl⟩, ⟨rfl, rfl⟩, ⟨rfl, rfl⟩, ⟨rfl, rfl⟩, ⟨rfl, rfl⟩, ⟨rfl, rfl⟩, ⟨rfl, rfl⟩, ⟨rfl, rfl⟩, ⟨rfl, rfl⟩⟩

end Sys2Proof.Machine
end

section
/-! PROOFS. One step (O1): the command at the front of the queue has its effect, and with nothing that waits the block
idles. -/

namespace Sys2Proof.Machine

/-- With a command at the front, a step is the effect of that command on the queue behind it. -/
theorem step_takeFront {s : State} {c : Instr} {rest : List Instr} (h : s.pending = c :: rest) :
    step s = exec c { s with pending := rest } := by
  rw [step, h]

/-- With neither a command nor a watch stop request waiting, the block idles (log entry 3). -/
theorem step_idle {s : State} (hp : s.pending = []) (hq : s.stopRequests = []) : step s = .next s := by
  rw [step_takeStopRequest hp, State.takeStopRequest_nil s hq, Raising.settle, State.raiseAll_nil]

/-- Settles O1: a command at the front is taken, and with nothing that waits the state stays as it is. -/
theorem stepTakesTheFrontCommand : Obligations.StepTakesTheFrontCommand :=
  ⟨fun _ _ _ front => step_takeFront front, fun _ empty noRequest => step_idle empty noRequest⟩

end Sys2Proof.Machine
end
